-- ==== Sys2Proof/Word.lean ====
section
/-! DEFINITION. The plain value types of the part: bytes, addresses, converter codes and station times (00_scope.md, 0.5). -/
namespace Sys2Proof

/-- A byte on air, in the configuration record or on the status line (0.5.6). -/
abbrev Byte := BitVec 8

/-- A station address, network id or fault subject (0.5.3). -/
abbrev Addr := BitVec 16

/-- A converter code, 0..1023 (R1). -/
abbrev Code := BitVec 10

/-- Station time, or a span of it, in microseconds. -/
abbrev Us := Nat

/-- Station time as the count of milliseconds of 0.5.1. -/
abbrev Ms := Nat

/-- A timer: stopped, or running to the station time at which its duration has passed (0.5.1). -/
abbrev Timer := Option Us

end Sys2Proof
end

