-- ==== Sys2Proof/Syntax.lean ====
section
/-! DEFINITION. The commands of the part: one constructor for each row of spec/opcode_table.json. -/
namespace Sys2Proof

/-- The inputs the line unit debounces (R192). -/
inductive InputLine where
  | test
  | profile
  | silence
  | reset
  deriving DecidableEq, Repr

/-- A command: one step of the part. `dt` is the station time, in microseconds, that has passed since the command
before it (log 1); an event that arrives together with the one before has `dt = 0`. -/
inductive Instr where
  /-- START_UP_RESET (R185). -/
  | startUpReset (dt : Nat)
  /-- RESET_LINE_RELEASE (R185). -/
  | resetLineRelease (dt : Nat)
  /-- CONFIG_READ_ATTEMPT_END (R187). `attempt` is the serial number of the attempt that ended, counted from the start-up
  reset on (log 24); `bytes` are what the port delivered. -/
  | configReadAttemptEnd (dt : Nat) (attempt : Nat) (bytes : List Byte)
  /-- CONFIG_READ_GUARD_EXPIRY (R187). -/
  | configReadGuardExpiry (dt : Nat)
  /-- RESTART_COUNT_WRITE_END (R189). -/
  | restartCountWriteEnd (dt : Nat)
  /-- RESTART_COUNT_WRITE_GUARD_EXPIRY (R189). -/
  | restartCountWriteGuardExpiry (dt : Nat)
  /-- LEARNING_LIMIT_EXPIRY (R190). -/
  | learningLimitExpiry (dt : Nat)
  /-- SCAN_COMPLETION (R7). `seq` is the number of the scan whose conversions have ended (log 24); a role whose scan group lacks a channel ignores its code. -/
  | scanCompletion (dt : Nat) (seq : BitVec 16) (d i b t v : Code)
  /-- SCAN_GUARD_EXPIRY (R14). -/
  | scanGuardExpiry (dt : Nat)
  /-- HEAT_TICK (R32). -/
  | heatTick (dt : Nat)
  /-- REFRESH_TIMER_EXPIRY (R52). -/
  | refreshTimerExpiry (dt : Nat)
  /-- SERVICE_LIMIT_EXPIRY (R57). -/
  | serviceLimitExpiry (dt : Nat)
  /-- OBSERVATION_TIMER_EXPIRY (R59). -/
  | observationTimerExpiry (dt : Nat)
  /-- HOLD_TIMER_EXPIRY (R70). `a` is the neighbour whose hold runs out. -/
  | holdTimerExpiry (dt : Nat) (a : Addr)
  /-- SUPERVISION_EXPIRY (R75). `a` is the neighbour whose supervision expiry falls. -/
  | supervisionExpiry (dt : Nat) (a : Addr)
  /-- CHANNEL_SAMPLE_END (R103). `level` is the highest level measured during the sample, in dBm. -/
  | channelSampleEnd (dt : Nat) (level : Int)
  /-- PREAMBLE_DETECTION (R104). -/
  | preambleDetection (dt : Nat)
  /-- DELIMITER_FOUND (R104). `level` is the level measured over the two delimiter bytes, in whole dBm rounded down. -/
  | delimiterFound (dt : Nat) (level : Int)
  /-- DELIMITER_WAIT_LIMIT (R104). -/
  | delimiterWaitLimit (dt : Nat)
  /-- LEVEL_LOST (R104). -/
  | levelLost (dt : Nat)
  /-- KIND_BYTE_ARRIVAL (R105). The three header bytes that have arrived: the network id `b0`, `b1` and the kind. -/
  | kindByteArrival (dt : Nat) (b0 b1 kind : Byte)
  /-- SEVENTH_HEADER_BYTE (R105). The four further header bytes: flags, sender address, body length. -/
  | seventhHeaderByte (dt : Nat) (flags a0 a1 len : Byte)
  /-- FRAME_END (R105). `rest` are the bytes that arrived after those already taken; the frame is complete when they reach the last CRC byte, and cut off by a lost carrier when they do not (log 16). -/
  | frameEnd (dt : Nat) (rest : List Byte)
  /-- CARRIER_LOST_BEFORE_KIND (R108). -/
  | carrierLostBeforeKind (dt : Nat)
  /-- HEADER_GUARD_EXPIRY (R107). -/
  | headerGuardExpiry (dt : Nat)
  /-- FRAME_GUARD_EXPIRY (R107). -/
  | frameGuardExpiry (dt : Nat)
  /-- CALIBRATION_COMPLETION (R115). `begun` is the station time at which the calibration that has ended was begun, which
  names it (log 24). -/
  | calibrationCompletion (dt : Nat) (begun : Nat := 0)
  /-- CALIBRATION_GUARD_EXPIRY (R115). -/
  | calibrationGuardExpiry (dt : Nat)
  /-- BACKOFF_END (R121). -/
  | backoffEnd (dt : Nat)
  /-- ASSESSMENT_END (R122). `level` is the highest level measured, in dBm. -/
  | assessmentEnd (dt : Nat) (level : Int)
  /-- ASSESSMENT_GUARD_EXPIRY (R122). -/
  | assessmentGuardExpiry (dt : Nat)
  /-- PREAMBLE_END (R125). -/
  | preambleEnd (dt : Nat)
  /-- BODY_END (R131). -/
  | bodyEnd (dt : Nat)
  /-- BODY_GUARD_EXPIRY (R130). -/
  | bodyGuardExpiry (dt : Nat)
  /-- CHANNEL_BLOCKED_WATCH_EXPIRY (R124). -/
  | channelBlockedWatchExpiry (dt : Nat)
  /-- RELAY_WAIT_END (R150). `buf` is the buffer whose relay wait ends. -/
  | relayWaitEnd (dt : Nat) (buf : Fin 8)
  /-- PROFILE_REFRESH_TIMER_EXPIRY (R154). -/
  | profileRefreshTimerExpiry (dt : Nat)
  /-- ENTRY_BOUNDARY (R156). -/
  | entryBoundary (dt : Nat)
  /-- START_UP_WINDOW_EXPIRY (R159). -/
  | startUpWindowExpiry (dt : Nat)
  /-- ALERT_HOLD_EXPIRY (R161). -/
  | alertHoldExpiry (dt : Nat)
  /-- ALERT_COMMITMENT_EXPIRY (R162). -/
  | alertCommitmentExpiry (dt : Nat)
  /-- SCHEDULED_LEAVE (R165). -/
  | scheduledLeave (dt : Nat)
  /-- SETTLE_END (R166). -/
  | settleEnd (dt : Nat)
  /-- STALL_TIMER_EXPIRY (R170). -/
  | stallTimerExpiry (dt : Nat)
  /-- FAILED_TIMER_EXPIRY (R171). -/
  | failedTimerExpiry (dt : Nat)
  /-- REPORT_RETRY_TIMER_EXPIRY (R176). -/
  | reportRetryTimerExpiry (dt : Nat)
  /-- HEALTH_TIMER_EXPIRY (R183). -/
  | healthTimerExpiry (dt : Nat)
  /-- INPUT_EDGE (R192). The level on `line` changes to its other level. -/
  | inputEdge (dt : Nat) (line : InputLine)
  /-- DEBOUNCE_END (R192). `line` is the input that has stood 50 ms without an edge. -/
  | debounceEnd (dt : Nat) (line : InputLine)
  /-- LONG_PRESS (R192). -/
  | longPress (dt : Nat)
  /-- LED_PERIOD_START (R191). -/
  | ledPeriodStart (dt : Nat)
  /-- STATE_PATTERN_END (R191). -/
  | statePatternEnd (dt : Nat)
  /-- STATUS_RECORD_SENT (R195). -/
  | statusRecordSent (dt : Nat)
  deriving DecidableEq, Repr

/-- The station time a command brings (log 1). -/
def Instr.dt : Instr → Nat
  | .startUpReset dt => dt
  | .resetLineRelease dt => dt
  | .configReadAttemptEnd dt _ _ => dt
  | .configReadGuardExpiry dt => dt
  | .restartCountWriteEnd dt => dt
  | .restartCountWriteGuardExpiry dt => dt
  | .learningLimitExpiry dt => dt
  | .scanCompletion dt _ _ _ _ _ _ => dt
  | .scanGuardExpiry dt => dt
  | .heatTick dt => dt
  | .refreshTimerExpiry dt => dt
  | .serviceLimitExpiry dt => dt
  | .observationTimerExpiry dt => dt
  | .holdTimerExpiry dt _ => dt
  | .supervisionExpiry dt _ => dt
  | .channelSampleEnd dt _ => dt
  | .preambleDetection dt => dt
  | .delimiterFound dt _ => dt
  | .delimiterWaitLimit dt => dt
  | .levelLost dt => dt
  | .kindByteArrival dt _ _ _ => dt
  | .seventhHeaderByte dt _ _ _ _ => dt
  | .frameEnd dt _ => dt
  | .carrierLostBeforeKind dt => dt
  | .headerGuardExpiry dt => dt
  | .frameGuardExpiry dt => dt
  | .calibrationCompletion dt _ => dt
  | .calibrationGuardExpiry dt => dt
  | .backoffEnd dt => dt
  | .assessmentEnd dt _ => dt
  | .assessmentGuardExpiry dt => dt
  | .preambleEnd dt => dt
  | .bodyEnd dt => dt
  | .bodyGuardExpiry dt => dt
  | .channelBlockedWatchExpiry dt => dt
  | .relayWaitEnd dt _ => dt
  | .profileRefreshTimerExpiry dt => dt
  | .entryBoundary dt => dt
  | .startUpWindowExpiry dt => dt
  | .alertHoldExpiry dt => dt
  | .alertCommitmentExpiry dt => dt
  | .scheduledLeave dt => dt
  | .settleEnd dt => dt
  | .stallTimerExpiry dt => dt
  | .failedTimerExpiry dt => dt
  | .reportRetryTimerExpiry dt => dt
  | .healthTimerExpiry dt => dt
  | .inputEdge dt _ => dt
  | .debounceEnd dt _ => dt
  | .longPress dt => dt
  | .ledPeriodStart dt => dt
  | .statePatternEnd dt => dt
  | .statusRecordSent dt => dt

end Sys2Proof
end

