-- ==== Sys2Proof/Decode.lean ====
section
/-! DEFINITION. The commands that words spell: the table gives no row any bits (log 33), so no word spells one. -/
namespace Sys2Proof

/-- The command a word of the table's bits spells. Every row of spec/opcode_table.json has an empty `fields` list and
no fixed bits: a command is an event at the part, not a word. -/
def decodeTableWord (_nbits _w : Nat) : Option Instr := none

end Sys2Proof
end

