-- ==== Sys2Proof/Config.lean ====
section
/-! DEFINITION. The free values of the part (00_scope.md, 0.5.2): random draws, and the lag of a scan's
steps behind their nominal times (R3). -/
namespace Sys2Proof

/-- The value of the `n`-th random draw, taken from radio noise (0.5.2).
Nothing constrains it (log 5): a rule that draws from a listed set takes it modulo the size of the set. -/
opaque Config.draw (n : Nat) : Nat

/-- How many microseconds beyond its nominal duration the `k`-th step of a scan lasts, where the step may, for the scan of
number `seq` started at station time `start`: the times of R3 are nominal, and nothing constrains it (log 41). -/
opaque Config.scanLag (start seq k : Nat) : Nat

end Sys2Proof
end

