-- ==== Sys2Proof/Machine/State.lean ====
section
/-! DEFINITION. The state of the part, block by block (0.4), as plain data, and its value after a start-up reset. -/
namespace Sys2Proof.Machine

/-! ## Names shared by the blocks -/

/-- The role of a station (0.2). -/
inductive Role where
  | multi | heat | relay | panel
  deriving DecidableEq, Repr

/-- The classification of a part of a sample set (R9, R10). -/
inductive PartStatus where
  | valid | invalid
  deriving DecidableEq, Repr

/-- The detection states (R37). -/
inductive DetState where
  | quiet | watch | verify | fire
  deriving DecidableEq, Repr

/-- The causes a declaration records (R50). -/
inductive FireCause where
  | smoke | heatRate | heatFixed | smokeAndHeat
  deriving DecidableEq, Repr

/-- The two level sets a profile selects (R38, R53). -/
inductive Profile where
  | normal | service
  deriving DecidableEq, Repr

/-- The two frame classes (R85). -/
inductive FrameClass where
  | urgent | routine
  deriving DecidableEq, Repr

/-- The faults of R172. -/
inductive FaultCode where
  | chamber | heatSensor | lowBattery | scanStall | radioStall | radioFailed | channelBlocked | neighbourLost
  | configWrite | selfTest
  deriving DecidableEq, Repr

/-- The statistics counters of R182. -/
inductive Counter where
  | rxGood | rxCrc | rxFormat | rxNobuf | rxDuplicate | rxStale | rxRefused | txSent | txDeferred | txAbandoned
  | relaySent | relaySuppressed | txPreempted | guardExpired | falseWake | neighbourRefused
  deriving DecidableEq, Repr

/-- The guards of R168. -/
inductive GuardName where
  | scan | header | frame | assessment | body | calibration | configRead | restartWrite
  deriving DecidableEq, Repr

/-! ## Configuration record -/

/-- One level set (R38), clamped by R39; `verifyMax` in seconds. -/
structure LevelSet where
  watch : Nat
  alarm : Nat
  confirm : Nat
  verifyMax : Nat
  deriving DecidableEq, Repr

/-- The applied configuration record (R186); periods in the record's own units. -/
structure ConfigRecord where
  networkId : Addr
  address : Addr
  zone : Byte
  role : Role
  channel : Nat
  hopLimit : Nat
  observationPeriod : Nat
  healthPeriod : Nat
  settleCode : Nat
  serviceApplies : Bool
  normal : LevelSet
  service : LevelSet
  verifySolo : Nat
  gain : Nat
  smokeFull : Nat
  ratioMin : Nat
  rorFloor : Nat
  warmLevel : Nat
  heatLimit : Nat
  lowBattery : Nat
  restartCount : Byte
  deriving DecidableEq, Repr

/-! ## Measurement unit -/

/-- The optical codes of a MULTI set and the status of its smoke part (R8, R9). -/
structure SmokePart where
  d : Code
  i : Code
  b : Code
  status : PartStatus
  deriving DecidableEq, Repr

/-- The thermistor code of a MULTI or HEAT set and the status of its heat part (R8, R10). -/
structure HeatPart where
  t : Code
  status : PartStatus
  deriving DecidableEq, Repr

/-- A latched sample set (R8); parts the role's scan group does not convert are absent. -/
structure SampleSet where
  seq : BitVec 16
  smoke : Option SmokePart
  heat : Option HeatPart
  v : Code
  deriving DecidableEq, Repr

/-- The scan in flight (R5): its number, its start event, and who awaits it. -/
structure Scan where
  seq : BitVec 16
  startedAt : Us
  awaitedLearning : Bool
  awaitedSelfTest : Bool
  deriving DecidableEq, Repr

/-- The validity run of one part (R11). -/
structure ValidityRun where
  invalid : Nat
  valid : Nat
  raised : Bool
  deriving DecidableEq, Repr

/-- The measurement unit (R16). -/
structure Mu where
  scan : Option Scan
  latched : Option SampleSet
  seq : BitVec 16
  smokeRun : ValidityRun
  heatRun : ValidityRun
  deriving DecidableEq, Repr

/-! ## Detection unit -/

/-- The evidence figures (R18) and the evidence state of R36. -/
structure Evidence where
  ibase : Nat
  bbase : Nat
  learning : Bool
  learnCount : Nat
  sumIr : Nat
  sumBlue : Nat
  e : Nat
  esw : Nat
  eh : Nat
  smoke : Option Nat
  ratio : Option Nat
  theta : Option Int
  ror : Int
  heatStatus : Option PartStatus
  ring : List Int
  candidate : Option Int
  heatTick : Timer
  deriving DecidableEq, Repr

/-- The detection record (R37), the profile items (R53) and the observation timer (R59). -/
structure Detection where
  state : DetState
  verifyStart : Option Ms
  hyst : Nat
  sat : Nat
  cause : Option FireCause
  evidence : Option Nat
  refresh : Timer
  profile : Profile
  pendingProfile : Option Profile
  serviceLimit : Timer
  observation : Timer
  deriving DecidableEq, Repr

/-! ## Neighbour table -/

/-- The status of a neighbour entry (R63). -/
inductive NeighbourStatus where
  | new | live | lost
  deriving DecidableEq, Repr

/-- The reported part of an entry (R63). -/
structure Report where
  state : DetState
  e : Nat
  heardAt : Ms
  deriving DecidableEq, Repr

/-- One entry of the neighbour table (R63); `alert` is its listen mode, `hold` stopped is a hold timer of 0. -/
structure Neighbour where
  addr : Addr
  zone : Option Byte
  avg : Int
  frames : Nat
  lastHeard : Ms
  alert : Bool
  report : Option Report
  hold : Timer
  supervision : Option Ms
  status : NeighbourStatus
  deriving DecidableEq, Repr

/-! ## Radio, receive unit and frame pool -/

/-- Who holds the radio (R99). -/
inductive RadioOwner where
  | none | receiveUnit | tu | heldOff
  deriving DecidableEq, Repr

/-- The states of the receive unit (6.2). -/
inductive RxState where
  | off | sampling | listening | receiving
  deriving DecidableEq, Repr

/-- A frame being taken (R105, R106): its link level, the header latch, the claimed buffer, whether the claim was
refused, and the body length once the seventh header byte has arrived. -/
structure Reception where
  level : Int
  latch : List Byte
  buf : Option (Fin 8)
  refused : Bool
  bodyLen : Option Byte
  deriving DecidableEq, Repr

/-- The arbiter and the receive unit (R99, R102, R104). -/
structure Radio where
  owner : RadioOwner
  rx : RxState
  sampleEnd : Timer
  waitSince : Option Ms
  waitEnd : Timer
  reception : Option Reception
  deriving DecidableEq, Repr

/-- The states of a pool buffer (R109). -/
inductive BufState where
  | free | receiving | dispatch | relayWait | queued | sending
  deriving DecidableEq, Repr

/-- One pool buffer (6.4): the byte count is the length of `frame`. -/
structure Buffer where
  state : BufState
  cls : Option FrameClass
  frame : List Byte
  level : Option Int
  deriving DecidableEq, Repr

/-- A FREE buffer: it holds nothing. -/
def Buffer.empty : Buffer := { state := .free, cls := none, frame := [], level := none }

/-- The eight pool buffers (R109) and the busy flag (R112). -/
structure Pool where
  bufs : Vector Buffer 8
  busy : Bool
  deriving DecidableEq, Repr

/-! ## Transmit unit -/

/-- The origin mark of a queue entry (R117). -/
inductive OriginMark where
  | own | relay
  deriving DecidableEq, Repr

/-- An entry of a transmit queue (R117). -/
structure TxEntry where
  buf : Fin 8
  mark : OriginMark
  deferrals : Option Nat
  strikes : Nat
  headTime : Option Ms
  deriving DecidableEq, Repr

/-- The phases of the transmit unit (7.2). -/
inductive TxPhase where
  | idle | backoff | assess | preamble | body
  deriving DecidableEq, Repr

/-- The channel-blocked watch (R124). -/
inductive Watch where
  | stopped
  | running (until_ : Us)
  | expired
  deriving DecidableEq, Repr

/-- The transmit unit (R117, 7.2, R135). `waiting` is a request held at the arbiter (R100); `sentAlert` the
alert-listening flag settled at the last body start (R128). -/
structure Tu where
  urgent : List TxEntry
  routine : List TxEntry
  current : Option TxEntry
  phase : TxPhase
  backoff : Timer
  waiting : Bool
  preambleEnd : Timer
  longPreamble : Bool
  sentAlert : Bool
  watch : Watch
  deriving DecidableEq, Repr

/-! ## Flood unit -/

/-- An entry of the seen list (R140); `marks` are held nearest to `h` first. -/
structure SeenEntry where
  origin : Addr
  run : BitVec 8
  h : BitVec 8
  marks : List (BitVec 8)
  updated : Ms
  pins : Nat
  deriving DecidableEq, Repr

/-- An entry of the fire origin list (R144); `cause` is the byte as received (R90). -/
structure FireOrigin where
  origin : Addr
  zone : Byte
  cause : Byte
  silenced : Bool
  deriving DecidableEq, Repr

/-- A relay wait record (R136, R148). -/
structure RelayWait where
  buf : Fin 8
  origin : Addr
  run : BitVec 8
  seq : BitVec 8
  cls : FrameClass
  endsAt : Us
  copies : Nat
  running : Bool
  deriving DecidableEq, Repr

/-- An urgent waiter (R136): a relay copy whose wait has ended, or a pending own urgent origination. -/
inductive Waiter where
  | relay (buf : Fin 8)
  | fire (cause : FireCause) (evidence : Nat)
  | silence
  | reset (epoch : BitVec 8)
  deriving DecidableEq, Repr

/-- The flood unit (R136). -/
structure Fu where
  seqCounter : BitVec 8
  run : BitVec 8
  epoch : BitVec 8
  seen : List SeenEntry
  fires : List FireOrigin
  overflow : Bool
  relayWaits : List RelayWait
  waiters : List Waiter
  pendingProfile : Option Profile
  pendingHealth : Bool
  profileRefresh : Timer
  deriving DecidableEq, Repr

/-! ## Schedule unit -/

/-- The active lists (R156). -/
inductive ActiveList where
  | none | quiet | alert
  deriving DecidableEq, Repr

/-- The alert hold timer (R161). -/
inductive AlertHold where
  | stopped
  | running (until_ : Us)
  | runOut
  deriving DecidableEq, Repr

/-- The power states (R164). -/
inductive Power where
  | run | doze
  deriving DecidableEq, Repr

/-- Work a wake event, a boundary, or a timer of R169 has started and that waits for the settle end (R166). -/
inductive HeldWork where
  | backoffEnd
  | relayOffer (buf : Fin 8)
  | heatPush
  | observation
  | refresh
  | serviceLimit
  | holdEnded
  | supervision (a : Addr)
  | health
  | guardExpired (g : GuardName)
  | boundary
  | stallEnded
  | failedEnded
  | reportRetry
  | channelBlocked
  | shortPress (pressedAt : Us)
  | longPress
  | silencePress
  | resetPress
  | profileChange (p : Profile)
  deriving DecidableEq, Repr

/-- The schedule unit (R156) and the work held until the settle end (R166). Position 0 is none. -/
structure Su where
  list : ActiveList
  position : Nat
  nextBoundary : Timer
  startWindow : Timer
  hold : AlertHold
  commitment : Timer
  power : Power
  settleEnd : Timer
  held : List HeldWork
  deriving DecidableEq, Repr

/-! ## Supervision unit -/

/-- The guards of R168, each running to its expiry or stopped. -/
structure Guards where
  scan : Timer
  header : Timer
  frame : Timer
  assessment : Timer
  body : Timer
  calibration : Timer
  configRead : Timer
  restartWrite : Timer
  deriving DecidableEq, Repr

/-- A record of the fault list (R172). -/
structure FaultRecord where
  code : FaultCode
  subject : Addr
  active : Bool
  reported : Bool
  composed : Bool
  raisedAt : Ms
  deriving DecidableEq, Repr

/-- The fault list, its storage-loss mark (R175) and the report retry timer (R176). -/
structure FaultLog where
  records : List FaultRecord
  storageLoss : Bool
  retry : Timer
  deriving DecidableEq, Repr

/-- The self-test's progress (R179). -/
inductive SelfTest where
  | idle | scanning | reading
  deriving DecidableEq, Repr

/-- The supervision unit's remaining state (R184). `selfTestEnded` is the self-test cause kept for the next look (R159). -/
structure Sv where
  history : List Ms
  stall : Timer
  failed : Timer
  below : Nat
  above : Nat
  completedScans : Nat
  selfTest : SelfTest
  selfTestEnded : Bool
  health : Timer
  deriving DecidableEq, Repr

/-! ## Line unit -/

/-- The LED patterns of R191; the state pattern holds its number of flashes. -/
inductive LedPattern where
  | off
  | tripleFlash
  | steady
  | statePattern (flashes : Nat)
  | doubleFlash
  | singleFlash
  | slowFlash
  deriving DecidableEq, Repr

/-- The types of a status record (R195). -/
inductive RecordType where
  | fireAdded | silenced | reset | faultRaised | faultCleared | profile | lost
  deriving DecidableEq, Repr

/-- A status record (R195). -/
structure StatusRecord where
  type : RecordType
  origin : Addr
  zone : Byte
  code : Byte
  detail : Byte
  deriving DecidableEq, Repr

/-- An entry of the remote fault set (R194). -/
structure RemoteFault where
  origin : Addr
  code : Byte
  subject : Addr
  deriving DecidableEq, Repr

/-- One input (R192): the level on the line and the debounced level, true where it is not the inactive level, and the
debounce timer. -/
structure Input where
  raw : Bool
  level : Bool
  debounce : Timer
  deriving DecidableEq, Repr

/-- The line unit (R145, R191 to R195). -/
structure Lu where
  sounder : Bool
  fireRelay : Bool
  faultRelay : Bool
  led : LedPattern
  ledStart : Us
  ledNext : Timer
  statePattern : Timer
  records : List StatusRecord
  lost : Nat
  sendEnd : Timer
  remote : List RemoteFault
  remoteOverflow : Bool
  test : Input
  profileLine : Input
  silenceLine : Input
  resetLine : Input
  press : Timer
  deriving DecidableEq, Repr

/-! ## Start-up controller -/

/-- Who asked for a read of the configuration record (R187, R181). -/
inductive ReadPurpose where
  | startUp | selfTest
  deriving DecidableEq, Repr

/-- A read attempt in progress (R187): its number in its read, 1 to 3, and its serial number among all attempts since the
start-up reset (log 24). -/
structure ReadAttempt where
  number : Nat
  serial : Nat
  purpose : ReadPurpose
  deriving DecidableEq, Repr

/-- The learning progress of the start-up controller (R185, R190). -/
inductive LearnProgress where
  | notBegun | learning | ended
  deriving DecidableEq, Repr

/-- The start-up controller (R185). `write` holds byte 39 and the two checksum bytes while they are written (R189);
`written` is the last such write that ended; `attempts` counts the read attempts begun since the start-up reset (log 24). -/
structure Sc where
  inReset : Bool
  config : Option ConfigRecord
  bytes : Option (List Byte)
  read : Option ReadAttempt
  attempts : Nat
  write : Option (List Byte)
  written : Option (List Byte)
  inert : Bool
  learning : LearnProgress
  learnCount : Nat
  learnLimit : Timer
  deriving DecidableEq, Repr

/-! ## The whole part -/

/-- The state of one KT-416. -/
structure State where
  now : Us
  draws : Nat
  pending : List Instr
  mu : Mu
  ev : Evidence
  det : Detection
  nt : List Neighbour
  radio : Radio
  pool : Pool
  tu : Tu
  fu : Fu
  su : Su
  guards : Guards
  faults : FaultLog
  counters : Vector Nat 16
  sv : Sv
  lu : Lu
  sc : Sc
  deriving DecidableEq, Repr

/-- The reasons a step can stop the machine. The manual describes no event that stops the part: there is none. -/
inductive Fault where
  deriving DecidableEq, Repr

/-- The reasons a command has no meaning here. -/
inductive Refusal where
  /-- Raised by a dispatch arm whose command has no meaning yet. Safe: the machine stops where the part goes on. -/
  | notModelled (mnemonic : String)
  deriving DecidableEq, Repr

/-! ## Initial values -/

/-- R16: both counts 0, the mark clear. -/
def ValidityRun.initial : ValidityRun := { invalid := 0, valid := 0, raised := false }

/-- R16. -/
def Mu.initial : Mu :=
  { scan := none, latched := none, seq := 0, smokeRun := .initial, heatRun := .initial }

/-- R36, before a record gives the station its role (log 18). -/
def Evidence.initial : Evidence :=
  { ibase := 0, bbase := 0, learning := false, learnCount := 0, sumIr := 0, sumBlue := 0, e := 0, esw := 0, eh := 0,
    smoke := none, ratio := none, theta := none, ror := 0, heatStatus := none, ring := [], candidate := none,
    heatTick := none }

/-- R62. -/
def Detection.initial : Detection :=
  { state := .quiet, verifyStart := none, hyst := 0, sat := 0, cause := none, evidence := none, refresh := none,
    profile := .normal, pendingProfile := none, serviceLimit := none, observation := none }

/-- R116: the radio off, ownership none. -/
def Radio.initial : Radio :=
  { owner := .none, rx := .off, sampleEnd := none, waitSince := none, waitEnd := none, reception := none }

/-- R116: every buffer FREE, the busy flag lowered. -/
def Pool.initial : Pool := { bufs := Vector.replicate 8 Buffer.empty, busy := false }

/-- R135. -/
def Tu.initial : Tu :=
  { urgent := [], routine := [], current := none, phase := .idle, backoff := none, waiting := false,
    preambleEnd := none, longPreamble := false, sentAlert := false, watch := .stopped }

/-- R136; the run number stands at 0 until the restart count has been read (log 19). -/
def Fu.initial : Fu :=
  { seqCounter := 0, run := 0, epoch := 0, seen := [], fires := [], overflow := false, relayWaits := [], waiters := [],
    pendingProfile := none, pendingHealth := false, profileRefresh := none }

/-- R156. -/
def Su.initial : Su :=
  { list := .none, position := 0, nextBoundary := none, startWindow := none, hold := .stopped, commitment := none,
    power := .run, settleEnd := none, held := [] }

/-- R184: no guard running. -/
def Guards.initial : Guards :=
  { scan := none, header := none, frame := none, assessment := none, body := none, calibration := none,
    configRead := none, restartWrite := none }

/-- R184: the list empty, the storage-loss mark clear. -/
def FaultLog.initial : FaultLog := { records := [], storageLoss := false, retry := none }

/-- R184: all counters 0. -/
def countersInitial : Vector Nat 16 := Vector.replicate 16 0

/-- R184. -/
def Sv.initial : Sv :=
  { history := [], stall := none, failed := none, below := 0, above := 0, completedScans := 0, selfTest := .idle,
    selfTestEnded := false, health := none }

/-- R185: an input whose line stands at level `raw` and whose debounced level is its inactive level. -/
def Input.initial (raw : Bool) : Input := { raw := raw, level := false, debounce := none }

/-- R185, with the levels that stand on the four input lines. -/
def Lu.initial (test profile silence reset : Bool) : Lu :=
  { sounder := false, fireRelay := false, faultRelay := false, led := .off, ledStart := 0, ledNext := none,
    statePattern := none, records := [], lost := 0, sendEnd := none, remote := [], remoteOverflow := false,
    test := .initial test, profileLine := .initial profile, silenceLine := .initial silence,
    resetLine := .initial reset, press := none }

/-- R185: no record, not inert, learning not begun; the part is in reset until the line is released. -/
def Sc.initial (written : Option (List Byte)) : Sc :=
  { inReset := true, config := none, bytes := none, read := none, attempts := 0, write := none, written := written,
    inert := false, learning := .notBegun, learnCount := 0, learnLimit := none }

/-- The part after a start-up reset at station time `now` (R185). What is outside the part, or is the model's own,
is carried over: the draw counter, the queue, the levels on the input lines and the bytes last written to the memory. -/
def State.afterReset (now : Us) (draws : Nat) (pending : List Instr) (test profile silence reset : Bool)
    (written : Option (List Byte)) : State :=
  { now := now, draws := draws, pending := pending, mu := .initial, ev := .initial, det := .initial, nt := [],
    radio := .initial, pool := .initial, tu := .initial, fu := .initial, su := .initial, guards := .initial,
    faults := .initial, counters := countersInitial, sv := .initial, lu := .initial test profile silence reset,
    sc := .initial written }

/-- The machine right after reset: R185 with every line at its inactive level and an empty queue (log 19). -/
def State.reset : State := State.afterReset 0 0 [] false false false false none

end Sys2Proof.Machine
end

