-- ==== Sys2Proof/Machine/Ops.lean ====
section
/-! DEFINITION. The named operations every block uses: the clock and timers, random draws, the statistics counters,
the guards, the configuration in force, and the frame pool's buffers. -/
namespace Sys2Proof.Machine

/-! ## Time -/

/-- `n` milliseconds in microseconds. -/
def millis (n : Nat) : Us := n * 1000

/-- `n` seconds in microseconds. -/
def seconds (n : Nat) : Us := n * 1000000

/-- Station time goes on by `dt` microseconds (log 1). -/
def State.elapse (dt : Us) (s : State) : State := { s with now := s.now + dt }

/-- Station time as the count of milliseconds of 0.5.1 (log 2). -/
def State.ms (s : State) : Ms := s.now / 1000

/-- Whether a timer's duration has passed (0.5.1). A stopped timer does not expire. -/
def State.due (s : State) (t : Timer) : Bool :=
  match t with
  | some d => decide (d ≤ s.now)
  | none => false

/-- A timer of `d` microseconds started now. -/
def State.after (s : State) (d : Us) : Timer := some (s.now + d)

/-- The next period of a periodic timer, begun at its own expiry and not at the work that expiry starts (R165, log 6). -/
def nextPeriod (t : Timer) (d : Us) : Timer := t.map (· + d)

/-! ## Lists kept in the order of a rule -/

/-- The least element under `lt`, the earliest in the list among equals. -/
def leastBy {α : Type} (lt : α → α → Bool) : List α → Option α
  | [] => none
  | x :: xs =>
    match leastBy lt xs with
    | none => some x
    | some y => if lt y x then some y else some x

/-- Insert into a list sorted by `lt`. -/
def insertBy {α : Type} (lt : α → α → Bool) (x : α) : List α → List α
  | [] => [x]
  | y :: ys => if lt y x then y :: insertBy lt x ys else x :: y :: ys

/-- Sort by `lt`. -/
def sortBy {α : Type} (lt : α → α → Bool) : List α → List α
  | [] => []
  | x :: xs => insertBy lt x (sortBy lt xs)

/-- A figure clamped to `lo..hi` (0.5.4). -/
def clamp (lo hi x : Nat) : Nat := max lo (min hi x)

/-! ## Random draws -/

/-- The draw a rule takes next from a set of `m` listed values, as 0..m−1 (0.5.2, log 5). -/
def State.drawOf (s : State) (m : Nat) : Nat := Config.draw s.draws % m

/-- A draw has been taken. -/
def State.drawn (s : State) : State := { s with draws := s.draws + 1 }

/-! ## Configuration in force -/

/-- What stands for the record while the start-up controller holds none; no block is in service then (log 28). -/
def ConfigRecord.blank : ConfigRecord :=
  { networkId := 0, address := 0, zone := 0, role := .relay, channel := 0, hopLimit := 1, observationPeriod := 30,
    healthPeriod := 1, settleCode := 0, serviceApplies := false,
    normal := { watch := 50, alarm := 100, confirm := 100, verifyMax := 10 },
    service := { watch := 50, alarm := 100, confirm := 100, verifyMax := 10 },
    verifySolo := 10, gain := 64, smokeFull := 100, ratioMin := 0, rorFloor := 0, warmLevel := 0, heatLimit := 160,
    lowBattery := 0, restartCount := 0 }

/-- The configuration record in force (R186). -/
def State.cfg (s : State) : ConfigRecord := s.sc.config.getD ConfigRecord.blank

/-- A PANEL station, by its applied record (0.2). -/
def State.isPanel (s : State) : Bool := s.sc.config.any (fun c => decide (c.role = .panel))

/-- A MULTI station, by its applied record (0.2). -/
def State.isMulti (s : State) : Bool := s.sc.config.any (fun c => decide (c.role = .multi))

/-- A MULTI or HEAT station: the roles that evaluate and that look at alert causes (R17, R159). -/
def State.isDetector (s : State) : Bool :=
  s.sc.config.any (fun c => decide (c.role = .multi) || decide (c.role = .heat))

/-- The level set of the profile in force (R38). -/
def State.levels (s : State) : LevelSet :=
  match s.det.profile with
  | .normal => s.cfg.normal
  | .service => s.cfg.service

/-! ## Statistics counters -/

/-- The place of a counter: its number of R182 less one. -/
def Counter.index : Counter → Fin 16
  | .rxGood => 0
  | .rxCrc => 1
  | .rxFormat => 2
  | .rxNobuf => 3
  | .rxDuplicate => 4
  | .rxStale => 5
  | .rxRefused => 6
  | .txSent => 7
  | .txDeferred => 8
  | .txAbandoned => 9
  | .relaySent => 10
  | .relaySuppressed => 11
  | .txPreempted => 12
  | .guardExpired => 13
  | .falseWake => 14
  | .neighbourRefused => 15

/-- The value of a counter. -/
def State.counter (s : State) (c : Counter) : Nat := s.counters[c.index.val]

/-- A counter increased by 1, saturating at 65535 (R182). -/
def State.count (c : Counter) (s : State) : State :=
  { s with counters := s.counters.set c.index.val (min 65535 (s.counters[c.index.val] + 1)) }

/-! ## Guards -/

/-- The timer of a guard. -/
def Guards.get (g : Guards) : GuardName → Timer
  | .scan => g.scan
  | .header => g.header
  | .frame => g.frame
  | .assessment => g.assessment
  | .body => g.body
  | .calibration => g.calibration
  | .configRead => g.configRead
  | .restartWrite => g.restartWrite

/-- A guard set to run or stopped. -/
def Guards.put (g : Guards) (n : GuardName) (t : Timer) : Guards :=
  match n with
  | .scan => { g with scan := t }
  | .header => { g with header := t }
  | .frame => { g with frame := t }
  | .assessment => { g with assessment := t }
  | .body => { g with body := t }
  | .calibration => { g with calibration := t }
  | .configRead => { g with configRead := t }
  | .restartWrite => { g with restartWrite := t }

/-- The SV starts guard `n` for `d` microseconds (R168). -/
def State.startGuard (n : GuardName) (d : Us) (s : State) : State :=
  { s with guards := s.guards.put n (s.after d) }

/-- The SV stops guard `n` (R168). -/
def State.stopGuard (n : GuardName) (s : State) : State := { s with guards := s.guards.put n none }

/-! ## The frame pool -/

/-- A pool buffer. -/
def Pool.get (p : Pool) (b : Fin 8) : Buffer := p.bufs[b.val]

/-- A pool buffer replaced. -/
def Pool.put (p : Pool) (b : Fin 8) (x : Buffer) : Pool := { p with bufs := p.bufs.set b.val x }

/-- The FREE count (R109). -/
def Pool.freeCount (p : Pool) : Nat :=
  (List.finRange 8).countP (fun b => decide ((p.get b).state = .free))

/-- The FREE buffer a claim takes: the buffers are alike (R110), and the model takes the lowest (log 22). -/
def Pool.firstFree (p : Pool) : Option (Fin 8) :=
  (List.finRange 8).find? (fun b => decide ((p.get b).state = .free))

/-- The reserve rule (R110): an urgent claim needs one FREE buffer, a routine claim three. -/
def Pool.claimAllowed (p : Pool) (c : FrameClass) : Bool :=
  match c with
  | .urgent => decide (1 ≤ p.freeCount)
  | .routine => decide (3 ≤ p.freeCount)

/-- A buffer of the pool. -/
def State.buf (s : State) (b : Fin 8) : Buffer := s.pool.get b

/-- A buffer of the pool replaced. -/
def State.setBuf (b : Fin 8) (x : Buffer) (s : State) : State := { s with pool := s.pool.put b x }

/-- A buffer moved to another state of R109, its contents kept. -/
def State.moveBuf (b : Fin 8) (st : BufState) (s : State) : State :=
  s.setBuf b { s.buf b with state := st }

/-- The frame in a buffer replaced. -/
def State.setFrame (b : Fin 8) (f : List Byte) (s : State) : State :=
  s.setBuf b { s.buf b with frame := f }

end Sys2Proof.Machine
end

