-- ==== Sys2Proof/Machine/Measurement.lean ====
section
/-! DEFINITION. The measurement unit's operations (chapter 1): requests and merging, the sample set and its
classification, the validity runs, the steps of a scan and its drive outputs. -/
namespace Sys2Proof.Machine

/-! ## Requests and merging (R5, R6) -/

/-- The requesters of a scan (1.4). -/
inductive Requester where
  | schedule | learning | selfTest
  deriving DecidableEq, Repr

/-- The scan a request starts (R5). -/
def Scan.started (seq : BitVec 16) (now : Us) (r : Requester) : Scan :=
  { seq := seq, startedAt := now, awaitedLearning := decide (r = .learning), awaitedSelfTest := decide (r = .selfTest) }

/-- The scan in flight after a request is merged into it (R6). -/
def Scan.merged (r : Requester) (x : Scan) : Scan :=
  { x with
    awaitedLearning := x.awaitedLearning || decide (r = .learning)
    awaitedSelfTest := x.awaitedSelfTest || decide (r = .selfTest) }

/-- A scan request: it starts a scan under the 5 ms guard (R5, R13), or is merged into the scan in flight (R6). -/
def State.requestScan (r : Requester) (s : State) : State :=
  match s.mu.scan with
  | none =>
    let s1 : State := { s with mu := { s.mu with
      seq := s.mu.seq + 1
      scan := some (.started (s.mu.seq + 1) s.now r) } }
    s1.startGuard .scan (millis 5)
  | some x => { s with mu := { s.mu with scan := some (x.merged r) } }

/-! ## The sample set (R7 to R10) -/

/-- The classification of a smoke part (R9). -/
def smokeStatus (d : Code) : PartStatus := if 512 ≤ d.toNat then .invalid else .valid

/-- The classification of a heat part (R10). -/
def heatStatusOf (t : Code) : PartStatus := if t.toNat < 20 ∨ 1003 < t.toNat then .invalid else .valid

/-- The sample set of a scan (R2, R8): the parts the role's scan group converts, each with its status. -/
def sampleSet (role : Role) (seq : BitVec 16) (d i b t v : Code) : SampleSet :=
  let heat : HeatPart := { t := t, status := heatStatusOf t }
  match role with
  | .multi => { seq := seq, smoke := some { d := d, i := i, b := b, status := smokeStatus d }, heat := some heat, v := v }
  | .heat => { seq := seq, smoke := none, heat := some heat, v := v }
  | .relay => { seq := seq, smoke := none, heat := none, v := v }
  | .panel => { seq := seq, smoke := none, heat := none, v := v }

/-- The scan ends with its set latched: the MU is idle and its guard stopped (R7). -/
def State.latch (set : SampleSet) (s : State) : State :=
  let s1 : State := { s with mu := { s.mu with scan := none, latched := some set } }
  s1.stopGuard .scan

/-! ## Validity runs (R11) -/

/-- What a validity run asks of the supervision unit. -/
inductive RunRequest where
  | nothing | raise | clear
  deriving DecidableEq, Repr

/-- A validity run after a latched part, with what it asks for (R11). -/
def ValidityRun.take (st : PartStatus) (v : ValidityRun) : RunRequest × ValidityRun :=
  match st with
  | .invalid =>
    let ask := decide (v.invalid = 2) && !v.raised
    (if ask then .raise else .nothing,
      { invalid := min 3 (v.invalid + 1), valid := 0, raised := v.raised || ask })
  | .valid =>
    let ask := decide (v.valid = 2) && v.raised
    (if ask then .clear else .nothing,
      { invalid := 0, valid := min 3 (v.valid + 1), raised := v.raised && !ask })

/-! ## The steps of a scan (R2, R3) -/

/-- The channels of the converter (R1). -/
inductive Channel where
  | dark | ir | blue | thermistor | supply
  deriving DecidableEq, Repr

/-- The scan group of a role, in conversion order (R2, R3). -/
def scanGroup : Role → List Channel
  | .multi => [.dark, .ir, .blue, .thermistor, .supply]
  | .heat => [.thermistor, .supply]
  | .relay => [.supply]
  | .panel => [.supply]

/-- The steps of a scan (R3). `pulse` is an emitter's pulse up to its conversion, which takes the last 60 µs of it; `overrun`
is the time past a conversion's 60 µs until its code comes, with both emitters off. -/
inductive ScanStep where
  | frontEndStart
  | pulse (c : Channel)
  | recovery
  | settling
  | conversion (c : Channel)
  | overrun (c : Channel)
  deriving DecidableEq, Repr

/-- Whether a step may last beyond its nominal duration: a settling step, or the wait for a code (R13, log 41). An emitter's
pulse lasts its 200 µs (R4). -/
def ScanStep.mayLag : ScanStep → Bool
  | .frontEndStart => true
  | .pulse _ => false
  | .recovery => false
  | .settling => true
  | .conversion _ => false
  | .overrun _ => true

/-- The steps a channel's conversion takes, with their nominal durations (R3). -/
def Channel.steps (c : Channel) : List (ScanStep × Us) :=
  match c with
  | .dark => [(.conversion .dark, 60), (.overrun .dark, 0)]
  | .ir => [(.pulse .ir, 140), (.conversion .ir, 60), (.overrun .ir, 0), (.recovery, 100)]
  | .blue => [(.pulse .blue, 140), (.conversion .blue, 60), (.overrun .blue, 0), (.recovery, 100)]
  | .thermistor => [(.settling, 150), (.conversion .thermistor, 60), (.overrun .thermistor, 0)]
  | .supply => [(.conversion .supply, 60), (.overrun .supply, 0)]

/-- The steps of a scan of the role, in order (R3). -/
def scanSteps (role : Role) : List (ScanStep × Us) :=
  (.frontEndStart, 70) :: (scanGroup role).flatMap Channel.steps

/-- A step placed in its scan, in microseconds from the start event. -/
structure ScanSlot where
  step : ScanStep
  start : Us
  stop : Us
  deriving DecidableEq, Repr

/-- The duration of the `k`-th step of a scan: the nominal one, and `lag k` beyond it where the step may lag. -/
def stepTime (lag : Nat → Us) (k : Nat) (p : ScanStep × Us) : Us := p.2 + (if p.1.mayLag then lag k else 0)

/-- Steps placed one after another from time `t`, the first of them the scan's `k`-th. -/
def slotsFrom (lag : Nat → Us) (k : Nat) (t : Us) : List (ScanStep × Us) → List ScanSlot
  | [] => []
  | p :: rest =>
    let stop := t + stepTime lag k p
    { step := p.1, start := t, stop := stop } :: slotsFrom lag (k + 1) stop rest

/-- The timeline of a scan of the role (R3), its times nominal where `lag` is 0. -/
def scanTimeline (lag : Nat → Us) (role : Role) : List ScanSlot := slotsFrom lag 0 0 (scanSteps role)

/-- The nominal completion time of a scan of the role (R3): 1000, 340 or 130 µs. -/
def nominalScanTime (role : Role) : Us := ((scanTimeline (fun _ => 0) role).map (·.stop)).getLastD 0

/-- How long the `k`-th step of a scan lasts beyond its nominal duration, where it may: free, since the times of R3 are
nominal (log 41). -/
def Scan.lag (x : Scan) (k : Nat) : Us := Config.scanLag x.startedAt x.seq.toNat k

/-- The timeline of the scan in flight. -/
def State.timeline (s : State) : List ScanSlot := s.mu.scan.elim [] (fun x => scanTimeline x.lag s.cfg.role)

/-- The time since the start event of the scan in flight. -/
def State.scanTime (s : State) : Option Us := s.mu.scan.map (fun x => s.now - x.startedAt)

/-- The step in which a timeline stands at a time from its start; past its end the last code is awaited. -/
def stepAt (slots : List ScanSlot) (t : Us) : Option ScanStep :=
  ((slots.find? (fun p => decide (t < p.stop))).or slots.getLast?).map (·.step)

/-- The step in which the scan in flight stands (R3). -/
def State.scanStep (s : State) : Option ScanStep := s.scanTime.bind (stepAt s.timeline)

/-! ## Drive outputs (R3, R4) -/

/-- Whether an emitter is lit at a time of a timeline: for 200 µs from the start of its pulse, the last 60 of which its
conversion takes (R3, R4). -/
def pulsed (slots : List ScanSlot) (c : Channel) (t : Us) : Bool :=
  slots.any (fun p => decide (p.step = .pulse c ∧ p.start ≤ t ∧ t < p.start + 200))

/-- The emitter drive of an optical channel; off with no scan in flight (R4). -/
def State.emitter (c : Channel) (s : State) : Bool := s.scanTime.any (pulsed s.timeline c)

/-- The IR emitter drive: the IR pulse of a full scan (R3, R4). -/
def State.irEmitter (s : State) : Bool := s.emitter .ir

/-- The blue emitter drive: the blue pulse of a full scan (R3, R4). -/
def State.blueEmitter (s : State) : Bool := s.emitter .blue

/-- The thermistor bias: from its settling to the scan's end (R3, R4). -/
def State.thermistorBias (s : State) : Bool :=
  s.scanTime.any (fun t => s.timeline.any (fun p => decide (p.step = .settling ∧ p.start ≤ t)))

/-- The front-end is on while a scan is in flight (R3, R4). -/
def State.frontEndOn (s : State) : Bool := s.mu.scan.isSome

end Sys2Proof.Machine
end

