-- ==== Sys2Proof/WellFormed.lean ====
section
/-! DEFINITION. The checks a command's operands meet, each from the rule that bounds them. -/
namespace Sys2Proof

/-- A valid address (0.5.3): 0x0001..0xFFFE. -/
def Addr.valid (a : Addr) : Bool := a != 0 && a != 0xFFFF

/-- Whether a command's operands are ones its rule admits. Every other operand's type admits exactly its values. -/
def Instr.wf : Instr → Bool
  | .configReadAttemptEnd _ attempt bytes => decide (1 ≤ attempt) && decide (bytes.length = 42)
  | .holdTimerExpiry _ a => Addr.valid a
  | .supervisionExpiry _ a => Addr.valid a
  | .frameEnd _ rest => decide (rest.length ≤ 50)
  | .startUpReset _ => true
  | .resetLineRelease _ => true
  | .configReadGuardExpiry _ => true
  | .restartCountWriteEnd _ => true
  | .restartCountWriteGuardExpiry _ => true
  | .learningLimitExpiry _ => true
  | .scanCompletion _ _ _ _ _ _ _ => true
  | .scanGuardExpiry _ => true
  | .heatTick _ => true
  | .refreshTimerExpiry _ => true
  | .serviceLimitExpiry _ => true
  | .observationTimerExpiry _ => true
  | .channelSampleEnd _ _ => true
  | .preambleDetection _ => true
  | .delimiterFound _ _ => true
  | .delimiterWaitLimit _ => true
  | .levelLost _ => true
  | .kindByteArrival _ _ _ _ => true
  | .seventhHeaderByte _ _ _ _ _ => true
  | .carrierLostBeforeKind _ => true
  | .headerGuardExpiry _ => true
  | .frameGuardExpiry _ => true
  | .calibrationCompletion _ _ => true
  | .calibrationGuardExpiry _ => true
  | .backoffEnd _ => true
  | .assessmentEnd _ _ => true
  | .assessmentGuardExpiry _ => true
  | .preambleEnd _ => true
  | .bodyEnd _ => true
  | .bodyGuardExpiry _ => true
  | .channelBlockedWatchExpiry _ => true
  | .relayWaitEnd _ _ => true
  | .profileRefreshTimerExpiry _ => true
  | .entryBoundary _ => true
  | .startUpWindowExpiry _ => true
  | .alertHoldExpiry _ => true
  | .alertCommitmentExpiry _ => true
  | .scheduledLeave _ => true
  | .settleEnd _ => true
  | .stallTimerExpiry _ => true
  | .failedTimerExpiry _ => true
  | .reportRetryTimerExpiry _ => true
  | .healthTimerExpiry _ => true
  | .inputEdge _ _ => true
  | .debounceEnd _ _ => true
  | .longPress _ => true
  | .ledPeriodStart _ => true
  | .statePatternEnd _ => true
  | .statusRecordSent _ => true

end Sys2Proof
end

