-- ==== Sys2Proof/Machine/Operands.lean ====
section
/-! DEFINITION. The operand forms of the part: the window comparison (0.5.5), the fields of a frame (R86), the CRC (R93),
the bodies of own frames, and the configuration record's fields (R186). -/
namespace Sys2Proof.Machine

/-! ## Window comparison -/

/-- 0.5.5: (a − b) mod 256 is in 1..127. -/
def newer (a b : BitVec 8) : Bool := decide (1 ≤ (a - b).toNat ∧ (a - b).toNat ≤ 127)

/-- 0.5.5: (b − a) mod 256 is in 1..128. -/
def older (a b : BitVec 8) : Bool := decide (1 ≤ (b - a).toNat ∧ (b - a).toNat ≤ 128)

/-! ## Bytes -/

/-- A two-byte field, least significant byte first (0.5.6). -/
def le16 (lo hi : Byte) : BitVec 16 := hi ++ lo

/-- The bytes of a two-byte field, least significant first (0.5.6). -/
def le16Bytes (x : BitVec 16) : List Byte := [x.extractLsb' 0 8, x.extractLsb' 8 8]

/-- A figure as a two-byte field. -/
def nat16Bytes (n : Nat) : List Byte := le16Bytes (BitVec.ofNat 16 n)

/-- A signed figure as a two-byte field, two's complement (0.5.6). -/
def int16Bytes (n : Int) : List Byte := le16Bytes (BitVec.ofInt 16 n)

/-! ## Codes -/

/-- The role codes of 0.2. -/
def Role.code : Role → Nat
  | .multi => 0
  | .heat => 1
  | .relay => 2
  | .panel => 3

/-- The role a code names (R186: 0..3). -/
def Role.ofCode (b : Byte) : Option Role :=
  match b.toNat with
  | 0 => some .multi
  | 1 => some .heat
  | 2 => some .relay
  | 3 => some .panel
  | _ => none

/-- The detection state codes of R37. -/
def DetState.code : DetState → Nat
  | .quiet => 0
  | .watch => 1
  | .verify => 2
  | .fire => 3

/-- The state a reported code names; a code above 3 cannot be read as a state (R68). -/
def DetState.ofCode (b : Byte) : Option DetState :=
  match b.toNat with
  | 0 => some .quiet
  | 1 => some .watch
  | 2 => some .verify
  | 3 => some .fire
  | _ => none

/-- The cause codes of R50. -/
def FireCause.code : FireCause → Byte
  | .smoke => 1
  | .heatRate => 2
  | .heatFixed => 3
  | .smokeAndHeat => 4

/-- The profile codes of R90. -/
def Profile.code : Profile → Byte
  | .normal => 0
  | .service => 1

/-- The profile a PROFILE byte names; validation refuses a byte above 1 (R95). -/
def Profile.ofCode (b : Byte) : Profile := if b = 0 then .normal else .service

/-- The fault codes of R172. -/
def FaultCode.code : FaultCode → Byte
  | .chamber => 1
  | .heatSensor => 2
  | .lowBattery => 3
  | .scanStall => 4
  | .radioStall => 5
  | .radioFailed => 6
  | .channelBlocked => 7
  | .neighbourLost => 8
  | .configWrite => 9
  | .selfTest => 10

/-! ## Frame kinds -/

/-- Kind codes of R85. -/
def kindObservation : Byte := 1
def kindFire : Byte := 2
def kindSilence : Byte := 3
def kindReset : Byte := 4
def kindProfile : Byte := 5
def kindFault : Byte := 6
def kindHealth : Byte := 7

/-- The class a kind byte gives at the claim: urgent for 2, 3 and 4, routine for every other value (R85). -/
def classOfKind (k : Byte) : FrameClass :=
  if k = kindFire ∨ k = kindSilence ∨ k = kindReset then .urgent else .routine

/-- The body lengths R85 allows a kind. -/
def allowedLengths (k : Byte) : List Nat :=
  match k.toNat with
  | 1 => [7, 10, 11, 14]
  | 2 => [11]
  | 3 => [8]
  | 4 => [8]
  | 5 => [9]
  | 6 => [13, 17, 21, 25]
  | 7 => [42]
  | _ => []

/-! ## Frame fields (R86) -/

/-- Byte `i` of a frame. -/
def Frame.byte (f : List Byte) (i : Nat) : Byte := f.getD i 0

/-- Body byte `i`: body offsets count from frame byte 7. -/
def Frame.body (f : List Byte) (i : Nat) : Byte := Frame.byte f (7 + i)

def Frame.networkId (f : List Byte) : Addr := le16 (Frame.byte f 0) (Frame.byte f 1)
def Frame.kind (f : List Byte) : Byte := Frame.byte f 2
def Frame.flags (f : List Byte) : Byte := Frame.byte f 3
def Frame.sender (f : List Byte) : Addr := le16 (Frame.byte f 4) (Frame.byte f 5)
def Frame.length (f : List Byte) : Nat := (Frame.byte f 6).toNat
def Frame.busyFlag (f : List Byte) : Bool := (Frame.flags f).getLsbD 0
def Frame.alertFlag (f : List Byte) : Bool := (Frame.flags f).getLsbD 1
def Frame.origin (f : List Byte) : Addr := le16 (Frame.body f 0) (Frame.body f 1)
def Frame.run (f : List Byte) : BitVec 8 := Frame.body f 2
def Frame.seq (f : List Byte) : BitVec 8 := Frame.body f 3
def Frame.hops (f : List Byte) : Nat := ((Frame.body f 4).extractLsb' 4 4).toNat
def Frame.hopLimit (f : List Byte) : Nat := ((Frame.body f 4).extractLsb' 0 4).toNat
def Frame.epoch (f : List Byte) : BitVec 8 := Frame.body f 5
def Frame.originRole (f : List Byte) : Byte := Frame.body f 6
def Frame.originZone (f : List Byte) : Byte := Frame.body f 7

/-- The received CRC field, at the place the header gives (R95). -/
def Frame.crcField (f : List Byte) : BitVec 16 :=
  le16 (Frame.byte f (7 + Frame.length f)) (Frame.byte f (8 + Frame.length f))

/-- Item `k` (from 0) of a FAULT body: fault code, subject, state byte (R86). -/
def Frame.faultItem (f : List Byte) (k : Nat) : Byte × Addr × Byte :=
  (Frame.body f (9 + 4 * k), le16 (Frame.body f (10 + 4 * k)) (Frame.body f (11 + 4 * k)), Frame.body f (12 + 4 * k))

/-- The items of a FAULT body, in body order (R91). -/
def Frame.faultItems (f : List Byte) : List (Byte × Addr × Byte) :=
  (List.range (Frame.body f 8).toNat).map (Frame.faultItem f)

/-- A FIRE or SILENCE frame of an epoch older than `e`: what the RESET actions purge (R127, R146). -/
def Frame.purgedBy (e : BitVec 8) (f : List Byte) : Bool :=
  (Frame.kind f == kindFire || Frame.kind f == kindSilence) && older (Frame.epoch f) e

/-! ## CRC (R93) -/

/-- One bit into the register. -/
def crcBit (r : BitVec 16) (b : Bool) : BitVec 16 :=
  if r.msb != b then (r <<< 1) ^^^ 0x1021#16 else r <<< 1

/-- One byte into the register, most significant bit first. -/
def crcByte (r : BitVec 16) (x : Byte) : BitVec 16 :=
  [7, 6, 5, 4, 3, 2, 1, 0].foldl (fun r i => crcBit r (x.getLsbD i)) r

/-- The CRC of the bytes of a header and body. -/
def crc (bytes : List Byte) : BitVec 16 := bytes.foldl crcByte 0xFFFF#16

/-- The header and body of a frame, without its CRC field. -/
def Frame.covered (f : List Byte) : List Byte := f.take (7 + Frame.length f)

/-- A frame with the CRC computed afresh over its header and body, least significant byte first (R93). -/
def Frame.withCrc (f : List Byte) : List Byte := Frame.covered f ++ le16Bytes (crc (Frame.covered f))

/-! ## On air (R83, R84) -/

/-- The time of a bit on air at 50 kbit/s (R83). -/
def bitTime : Us := 20

/-- The duration of a preamble (R84): 520 ms long, 4 ms short. -/
def preambleTime (long : Bool) : Us := if long then millis 520 else millis 4

/-- Bit `k` of the preamble's pattern, alternating ones and zeros (R84); a one comes first (log 43). -/
def preambleBit (k : Nat) : Bool := decide (k % 2 = 0)

/-- The keyed pattern of a preamble (R84): 26000 bits long, 200 short. -/
def preamblePattern (long : Bool) : List Bool := (List.range (preambleTime long / bitTime)).map preambleBit

/-- The bits sent after the preamble: the delimiter 0xC6, 0x5A and the frame proper, most significant bit first. -/
def Frame.onAir (f : List Byte) : List Bool :=
  ([0xC6#8, 0x5A#8] ++ f).flatMap (fun x => [7, 6, 5, 4, 3, 2, 1, 0].map x.getLsbD)

/-- One whole transmission, bit by bit (R83): the preamble, the delimiter and the frame proper. -/
def Frame.transmission (long : Bool) (f : List Byte) : List Bool := preamblePattern long ++ Frame.onAir f

/-- The body time (R83): (11 + L) × 160 µs. -/
def bodyTime (len : Nat) : Us := (11 + len) * 160

/-! ## Own frames -/

/-- What a station originates (R137), with the payload its requester gives. A FAULT item is code, subject and state. -/
inductive OwnFrame where
  | observation
  | fire (cause : FireCause) (evidence : Nat)
  | silence
  | reset
  | profile (p : Profile)
  | fault (items : List (FaultCode × Addr × Bool))
  | health
  deriving DecidableEq, Repr

/-- The kind of an own frame (R85). -/
def OwnFrame.kind : OwnFrame → Byte
  | .observation => kindObservation
  | .fire _ _ => kindFire
  | .silence => kindSilence
  | .reset => kindReset
  | .profile _ => kindProfile
  | .fault _ => kindFault
  | .health => kindHealth

/-- The class of an own frame (R85). -/
def OwnFrame.cls (o : OwnFrame) : FrameClass := classOfKind o.kind

/-- The payload after the flood header (R90 to R92); an OBSERVATION's body is composed at its body start (R61). -/
def OwnFrame.payload (o : OwnFrame) (counters : Vector Nat 16) (supply : Nat) : List Byte :=
  match o with
  | .observation => []
  | .fire c e => c.code :: nat16Bytes e
  | .silence => []
  | .reset => []
  | .profile p => [p.code]
  | .fault items =>
      BitVec.ofNat 8 items.length ::
        items.flatMap (fun i => i.1.code :: le16Bytes i.2.1 ++ [if i.2.2 then 1 else 0])
  | .health => counters.toList.flatMap nat16Bytes ++ nat16Bytes supply

/-- The flood header written by the origin (R88). -/
def floodHeader (c : ConfigRecord) (run seq epoch : BitVec 8) : List Byte :=
  le16Bytes c.address ++ [run, seq, BitVec.ofNat 8 c.hopLimit, epoch, BitVec.ofNat 8 c.role.code, c.zone]

/-- A frame from its header fields and body; flags, sender and CRC are settled at the body start (R87, R128, log 26). -/
def Frame.compose (c : ConfigRecord) (kind : Byte) (body : List Byte) : List Byte :=
  le16Bytes c.networkId ++ [kind, 0, 0, 0, BitVec.ofNat 8 body.length] ++ body

/-! ## Relay copies (R88, R148) -/

/-- The relay copy: hops increased by 1 and the station's own address written as sender; all else kept. -/
def Frame.relayCopy (own : Addr) (f : List Byte) : List Byte :=
  ((f.set 4 (own.extractLsb' 0 8)).set 5 (own.extractLsb' 8 8)).set 11 (Frame.body f 4 + 0x10)

/-! ## Configuration record (R186) -/

/-- A one-byte field. -/
def Record.byte (r : List Byte) (i : Nat) : Nat := (r.getD i 0).toNat

/-- A two-byte field. -/
def Record.word (r : List Byte) (i : Nat) : Nat := (le16 (r.getD i 0) (r.getD (i + 1) 0)).toNat

/-- The sum of bytes 0..39, modulo 65536 (R186). -/
def Record.sum (r : List Byte) : BitVec 16 := BitVec.ofNat 16 ((r.take 40).foldl (fun n b => n + b.toNat) 0)

/-- Whether the checksum field agrees (R187). -/
def Record.good (r : List Byte) : Bool := decide (Record.sum r = le16 (r.getD 40 0) (r.getD 41 0))

/-- A level set from its record fields (R39): alarm first, then watch and confirm against it. -/
def LevelSet.clamped (watch alarm confirm verifyMax : Nat) : LevelSet :=
  { alarm := clamp 100 1000 alarm
    watch := clamp 50 (clamp 100 1000 alarm - 50) watch
    confirm := clamp (clamp 100 1000 alarm) 4000 confirm
    verifyMax := clamp 10 240 verifyMax }

/-- The applied record (R186), or none when the network id, the address or the role is outside its range (R187). -/
def Record.apply (r : List Byte) : Option ConfigRecord :=
  match Role.ofCode (r.getD 5 0) with
  | none => none
  | some role =>
    if Addr.valid (BitVec.ofNat 16 (Record.word r 0)) && Addr.valid (BitVec.ofNat 16 (Record.word r 2)) then
      some
        { networkId := BitVec.ofNat 16 (Record.word r 0)
          address := BitVec.ofNat 16 (Record.word r 2)
          zone := r.getD 4 0
          role := role
          channel := clamp 0 7 (Record.byte r 6)
          hopLimit := clamp 1 15 (Record.byte r 7)
          observationPeriod := clamp 30 255 (Record.byte r 8)
          healthPeriod := clamp 1 24 (Record.byte r 9)
          settleCode := clamp 0 3 (Record.byte r 10)
          serviceApplies := decide (Record.byte r 11 ≠ 0)
          normal := LevelSet.clamped (Record.word r 12) (Record.word r 14) (Record.word r 16) (Record.byte r 18)
          service := LevelSet.clamped (Record.word r 19) (Record.word r 21) (Record.word r 23) (Record.byte r 25)
          verifySolo := clamp 10 120 (Record.byte r 26)
          gain := clamp 64 1023 (Record.word r 27)
          smokeFull := clamp 100 4000 (Record.word r 29)
          ratioMin := clamp 0 63 (Record.byte r 31)
          rorFloor := clamp 0 60 (Record.byte r 32)
          warmLevel := clamp 0 400 (Record.word r 33)
          heatLimit := clamp 160 600 (Record.word r 35)
          lowBattery := clamp 0 1023 (Record.word r 37)
          restartCount := r.getD 39 0 }
    else none

/-- Byte 39 and the checksum as the restart-count write sends them (R189): the count increased by 1 and the checksum
afresh over bytes 0..39 with the new count. -/
def Record.countWrite (r : List Byte) : List Byte :=
  (r.getD 39 0 + 1) :: le16Bytes (Record.sum (r.set 39 (r.getD 39 0 + 1)))

end Sys2Proof.Machine
end

