-- ==== Sys2Proof/Machine/Arithmetic.lean ====
section
/-! DEFINITION. The evidence arithmetic (chapter 2) as functions of a sample set, the record and the evidence state. -/
namespace Sys2Proof.Machine

/-! ## Stages -/

/-- A scatter code less the dark code, not below 0 (R19). -/
def darkCorrect (x d : Code) : Nat := x.toNat - d.toNat

/-- The excess of a corrected code over its baseline, in sixteenths, not below 0 (R20). -/
def smokeExcess (corrected base : Nat) : Nat := 16 * corrected - base

/-- The smoke signal (R25). -/
def smokeSignal (is gain : Nat) : Nat := min 4095 (is * gain / 256)

/-- Smoke evidence before weighting (R26). -/
def smokeEvidence (signal smokeFull : Nat) : Nat := min 1000 (signal * 1000 / smokeFull)

/-- The blue-to-IR ratio (R27). -/
def scatterRatio (is bs : Nat) : Nat := if is < 32 then 63 else min 63 (16 * bs / is)

/-- The weight in sixteenths (R28), the first condition down its table. -/
def smokeWeight (is ratio ratioMin : Nat) : Nat :=
  if is < 32 then 16
  else if ratioMin = 0 then 16
  else if ratioMin ≤ ratio then 16
  else max 4 (16 * ratio / ratioMin)

/-- Weighted smoke evidence (R28). -/
def weightedSmoke (es w : Nat) : Nat := es * w / 16

/-- The temperature of a valid thermistor code (R30). -/
def temperature (t : Code) : Int := (t.toNat : Int) - 200

/-- The rate of rise from the ring as it stands (R33): newest less oldest of 8 entries. -/
def rateOfRise (ring : List Int) : Int :=
  if ring.length = 8 then
    match ring.getLast?, ring.head? with
    | some newest, some oldest => newest - oldest
    | _, _ => 0
  else 0

/-- Heat evidence of a valid heat part (R34). -/
def heatEvidence (ror theta : Int) (rorFloor warmLevel : Nat) : Nat :=
  min 1000 (25 * (ror - rorFloor).toNat + 10 * (theta - warmLevel).toNat)

/-- Combined evidence (R35). -/
def combined (esw eh : Nat) : Nat := min 1000 (esw + eh)

/-- A temperature pushed onto the newest end of the ring, which keeps 8 (R32). -/
def ringPush (ring : List Int) (theta : Int) : List Int :=
  (if ring.length < 8 then ring else ring.drop 1) ++ [theta]

/-! ## Steps 1 to 3 of an evaluation (R17) -/

/-- Step 1: the smoke figures of a set with a VALID smoke part (R19 to R28); those of the last evaluation are held for
an INVALID one (R29). A set without a smoke part leaves them (R18). -/
def Evidence.smokeStep (c : ConfigRecord) (part : Option SmokePart) (v : Evidence) : Evidence :=
  match part with
  | some p =>
    if p.status = .valid then
      let is := if v.learning then 0 else smokeExcess (darkCorrect p.i p.d) v.ibase
      let bs := if v.learning then 0 else smokeExcess (darkCorrect p.b p.d) v.bbase
      let signal := smokeSignal is c.gain
      let ratio := scatterRatio is bs
      { v with
        smoke := some signal
        ratio := some ratio
        esw := weightedSmoke (smokeEvidence signal c.smokeFull) (smokeWeight is ratio c.ratioMin) }
    else v
  | none => v

/-- Step 2: the heat figures (R30, R33, R34). -/
def Evidence.heatStep (c : ConfigRecord) (part : Option HeatPart) (v : Evidence) : Evidence :=
  let ror := rateOfRise v.ring
  match part with
  | some p =>
    if p.status = .valid then
      { v with
        theta := some (temperature p.t)
        candidate := some (temperature p.t)
        ror := ror
        heatStatus := some .valid
        eh := heatEvidence ror (temperature p.t) c.rorFloor c.warmLevel }
    else { v with ror := ror, heatStatus := some .invalid, eh := 0 }
  | none => { v with ror := ror, eh := 0 }

/-- Step 3: the combination (R35). -/
def Evidence.combineStep (v : Evidence) : Evidence := { v with e := combined v.esw v.eh }

/-- Steps 1 to 3 of the evaluation of a set (R17). -/
def Evidence.figures (c : ConfigRecord) (set : SampleSet) (v : Evidence) : Evidence :=
  ((v.smokeStep c set.smoke).heatStep c set.heat).combineStep

/-! ## Step 5: learning and tracking -/

/-- A baseline after a tracking step, without the limit of R24 (R23). -/
def trackBase (corrected base : Nat) : Nat :=
  let diff : Int := 16 * (corrected : Int) - base
  if diff < 0 then base - 1 else if 1 ≤ diff ∧ diff ≤ 256 then base + 1 else base

/-- Ibase after a tracking step, held at 12000 (R24). -/
def trackIbase (corrected base : Nat) : Nat :=
  if 12000 < trackBase corrected base ∧ base < trackBase corrected base then base else trackBase corrected base

/-- Whether a tracking step would have increased Ibase past 12000: CHAMBER is asked for (R24). -/
def trackRaises (corrected base : Nat) : Bool :=
  decide (12000 < trackBase corrected base ∧ base < trackBase corrected base)

/-- A learning evaluation (R21, R22): the eighth ends learning, Ibase held to 12000. -/
def Evidence.learnStep (p : SmokePart) (v : Evidence) : Evidence :=
  let sumIr := v.sumIr + 16 * darkCorrect p.i p.d
  let sumBlue := v.sumBlue + 16 * darkCorrect p.b p.d
  if v.learnCount + 1 < 8 then { v with learnCount := v.learnCount + 1, sumIr := sumIr, sumBlue := sumBlue }
  else
    { v with
      learning := false
      learnCount := v.learnCount + 1
      sumIr := 0
      sumBlue := 0
      ibase := min 12000 (sumIr / 8)
      bbase := sumBlue / 8 }

/-- Whether a learning evaluation asks for CHAMBER (R22): the learned Ibase would exceed 12000. -/
def Evidence.learnRaises (p : SmokePart) (v : Evidence) : Bool :=
  decide (8 ≤ v.learnCount + 1 ∧ 12000 < (v.sumIr + 16 * darkCorrect p.i p.d) / 8)

/-- Step 5 (R21 to R24): whether CHAMBER is asked for, and the evidence state after. -/
def Evidence.baselineStep (madeIn : DetState) (part : Option SmokePart) (v : Evidence) : Bool × Evidence :=
  match part with
  | some p =>
    if p.status = .valid then
      if v.learning then (v.learnRaises p, v.learnStep p)
      else if madeIn = .quiet then
        (trackRaises (darkCorrect p.i p.d) v.ibase,
          { v with
            ibase := trackIbase (darkCorrect p.i p.d) v.ibase
            bbase := trackBase (darkCorrect p.b p.d) v.bbase })
      else (false, v)
    else (false, v)
  | none => (false, v)

end Sys2Proof.Machine
end

