-- ==== Sys2Proof/Machine/Flags.lean ====
section
/-! DEFINITION. Every flag the part computes: header flags (R87), the busy flag rule (R112), the parts present (R89),
and the conditions the lines follow (R145, R175, R194). -/
namespace Sys2Proof.Machine

/-- The header flags byte (R86, R128): bit 0 busy, bit 1 alert listening, bits 2–3 sender role, bits 4–7 zero. -/
def headerFlags (busy alert : Bool) (role : Role) : Byte :=
  BitVec.ofNat 8 ((if busy then 1 else 0) + (if alert then 2 else 0) + 4 * role.code)

/-- The alert-listening flag at a body start (R87, R128): on the alert list, and always on a RELAY or PANEL station. -/
def State.alertListening (s : State) : Bool :=
  decide (s.su.list = .alert) || decide (s.cfg.role = .relay) || decide (s.cfg.role = .panel)

/-- The busy flag after a FREE count has been compared with the two levels (R112). -/
def busyAfter (busy : Bool) (free : Nat) : Bool :=
  if busy then decide (free < 5) else decide (free ≤ 3)

/-- The parts-present byte of an OBSERVATION (R89): bit 0 smoke part, bit 1 heat part. -/
def partsPresent (smoke heat : Bool) : Byte := BitVec.ofNat 8 ((if smoke then 1 else 0) + (if heat then 2 else 0))

/-- The body length an OBSERVATION's parts-present byte calls for (R86, R95). -/
def observationLength (parts : Byte) : Nat :=
  7 + (if parts.getLsbD 0 then 3 else 0) + (if parts.getLsbD 1 then 4 else 0)

/-- The sounder's condition (R145): an entry not marked silenced, or the overflow flag. -/
def State.sounding (s : State) : Bool := s.fu.fires.any (fun f => !f.silenced) || s.fu.overflow

/-- The fire origin list holds an entry, or the overflow flag is set (R159, R194). -/
def State.fireListed (s : State) : Bool := !s.fu.fires.isEmpty || s.fu.overflow

/-- The fault indication (R175): an ACTIVE record or the storage-loss mark. -/
def State.faultIndication (s : State) : Bool := s.faults.records.any (·.active) || s.faults.storageLoss

/-- The fire relay's condition (R194): PANEL stations only. -/
def State.fireRelayOn (s : State) : Bool := s.isPanel && s.fireListed

/-- The fault relay's condition (R194): PANEL stations only. -/
def State.faultRelayOn (s : State) : Bool :=
  s.isPanel && (s.faultIndication || !s.lu.remote.isEmpty || s.lu.remoteOverflow)

end Sys2Proof.Machine
end

