-- ==== Sys2Proof/Machine/Lines.lean ====
section
/-! DEFINITION. The line unit's operations: status records (R195), the remote fault set (R194), the LED (R191) and the
lines that follow the flood and supervision units (R145, R194). -/
namespace Sys2Proof.Machine

/-! ## Status line -/

/-- The type codes of R195. -/
def RecordType.code : RecordType → Byte
  | .fireAdded => 1
  | .silenced => 2
  | .reset => 3
  | .faultRaised => 4
  | .faultCleared => 5
  | .profile => 6
  | .lost => 7

/-- The six bytes of a record (R195). -/
def StatusRecord.bytes (r : StatusRecord) : List Byte :=
  r.type.code :: le16Bytes r.origin ++ [r.zone, r.code, r.detail]

/-- A byte on the status line (R195): start bit, 8 data bits least significant first, stop bit; the mark level is true. -/
def uartBits (b : Byte) : List Bool := false :: [0, 1, 2, 3, 4, 5, 6, 7].map b.getLsbD ++ [true]

/-- The line levels of a record, bit by bit (R195). -/
def StatusRecord.lineBits (r : StatusRecord) : List Bool := r.bytes.flatMap uartBits

/-- The time a record takes on the line (R195): 60 bits at 9600 baud. -/
def recordTime : Us := 6250

/-- The line unit after a record is offered at `now` (R195). The first record of an empty queue begins to be sent; a full
queue drops the record and counts it lost. A record offered to a full queue at the very end of its head's last stop bit is
taken before the freeing it arrives together with: it takes the freed place, and the lost count waits for the next one
(log 42). -/
def Lu.offer (now : Us) (r : StatusRecord) (l : Lu) : Lu :=
  if l.records.length < 16 then
    { l with records := l.records ++ [r], sendEnd := if l.records.isEmpty then some (now + recordTime) else l.sendEnd }
  else if l.sendEnd = some now then
    { l with records := l.records.drop 1 ++ [r], sendEnd := some (now + recordTime) }
  else { l with lost := min 255 (l.lost + 1) }

/-- The LU queues a record (R195). -/
def State.queueRecord (r : StatusRecord) (s : State) : State := { s with lu := s.lu.offer s.now r }

/-- A record queued on a PANEL station; the other roles have no status line (0.2). -/
def State.panelRecord (type : RecordType) (origin : Addr) (zone code detail : Byte) (s : State) : State :=
  if s.isPanel then s.queueRecord { type, origin, zone, code, detail } else s

/-- The head record's last stop bit has been sent (R195): it leaves the queue, a lost-count record takes the freed place
if any were dropped, and the next record follows at once. -/
def State.recordSent (s : State) : State :=
  let rest := s.lu.records.drop 1
  let records :=
    if s.lu.lost = 0 then rest
    else rest ++ [{ type := .lost, origin := s.cfg.address, zone := s.cfg.zone, code := 0,
                    detail := BitVec.ofNat 8 s.lu.lost }]
  { s with lu := { s.lu with
      records := records
      lost := 0
      sendEnd := if records.isEmpty then none else nextPeriod s.lu.sendEnd recordTime } }

/-- The level of the status line (R195): the mark level, unless a record's bit is on the line now. -/
def State.statusLevel (s : State) : Bool :=
  match s.lu.records, s.lu.sendEnd with
  | r :: _, some e => r.lineBits.getD ((recordTime - (e - s.now)) * 60 / recordTime) true
  | _, _ => true

/-! ## Remote fault set -/

/-- The LU takes one item of an accepted FAULT (R194, R195): the set, then the record. -/
def State.remoteItem (origin : Addr) (zone : Byte) (item : Byte × Addr × Byte) (s : State) : State :=
  let entry : RemoteFault := { origin := origin, code := item.1, subject := item.2.1 }
  let raised := decide (item.2.2 = 1)
  let lu :=
    if raised then
      if s.lu.remote.contains entry then s.lu
      else if s.lu.remote.length < 16 then { s.lu with remote := s.lu.remote ++ [entry] }
      else { s.lu with remoteOverflow := true }
    else { s.lu with remote := s.lu.remote.erase entry }
  { s with lu := lu }.panelRecord (if raised then .faultRaised else .faultCleared) origin zone item.1
    (item.2.1.extractLsb' 0 8)

/-! ## LED -/

/-- The period of a pattern (R191). -/
def LedPattern.period : LedPattern → Us
  | .off => seconds 2
  | .tripleFlash => seconds 1
  | .steady => seconds 2
  | .statePattern _ => seconds 2
  | .doubleFlash => seconds 2
  | .singleFlash => seconds 2
  | .slowFlash => seconds 30

/-- The pattern of highest rank that applies (R191). The state pattern applies until its 2 s have passed, also after a time in
which the fire origin list kept it from being shown: emptied within the 2 s, the list's change shows it, for a whole period
(log 51). -/
def State.ledChoice (s : State) : LedPattern :=
  if s.sc.inert then .tripleFlash
  else if !s.fu.fires.isEmpty then .steady
  else if s.lu.statePattern.any (fun e => decide (s.now < e)) then .statePattern (s.det.state.code + 1)
  else if s.det.state = .verify then .doubleFlash
  else if s.faultIndication then .singleFlash
  else .slowFlash

/-- The pattern `p` begins its first period now (R191). -/
def State.showLed (p : LedPattern) (s : State) : State :=
  { s with lu := { s.lu with led := p, ledStart := s.now, ledNext := s.after p.period } }

/-- The LU makes a choice (R191): a change of pattern begins the new pattern's first period. -/
def State.ledChoose (s : State) : State :=
  if s.ledChoice = s.lu.led then s else s.showLed s.ledChoice

/-- The choice at the start of a period of the pattern shown (R191); the period begins on station time (log 6). -/
def State.ledPeriod (s : State) : State :=
  match s.lu.ledNext with
  | some t =>
    { s with lu := { s.lu with led := s.ledChoice, ledStart := t, ledNext := some (t + s.ledChoice.period) } }
  | none => s

/-- A short press reported at `pressedAt` shows the state pattern for 2 s from it, or starts it again (R191, R192). The
pattern's first period begins at the choice. Where the press was debounced in DOZE that is the settle end, so the LED shows
the period that is in progress to its end past the 2 s, at whose end R191 names no choice (log 48). -/
def State.showStatePattern (pressedAt : Us) (s : State) : State :=
  let s1 := { s with lu := { s.lu with statePattern := some (pressedAt + seconds 2) } }
  match s1.ledChoice with
  | .statePattern n => s1.showLed (.statePattern n)
  | _ => s1.ledChoose

/-- The starts of a pattern's flashes in its period, in microseconds (R191). -/
def LedPattern.flashes : LedPattern → List Us
  | .tripleFlash => [0, millis 200, millis 400]
  | .statePattern n => (List.range n).map (fun k => millis (400 * k))
  | .doubleFlash => [0, millis 200]
  | .singleFlash => [0]
  | .slowFlash => [0]
  | .steady => []
  | .off => []

/-- The LED line (R191): steady on, or a 100 ms flash of the pattern in progress. -/
def State.ledOn (s : State) : Bool :=
  decide (s.lu.led = .steady) ||
    s.lu.led.flashes.any (fun t => decide (s.lu.ledStart + t ≤ s.now ∧ s.now < s.lu.ledStart + t + millis 100))

/-! ## Lines that follow other blocks -/

/-- The sounder and the two relays follow their conditions (R145, R194). -/
def State.driveLines (s : State) : State :=
  { s with lu := { s.lu with sounder := s.sounding, fireRelay := s.fireRelayOn, faultRelay := s.faultRelayOn } }

end Sys2Proof.Machine
end

