-- ==== Sys2Proof/Machine/Neighbours.lean ====
section
/-! DEFINITION. The neighbour table as data (chapter 4): what a frame does to an entry, admission and eviction, and the
queries other blocks ask. -/
namespace Sys2Proof.Machine

/-- The sender's part of a dispatched frame (R65); `obs` is an OBSERVATION's state code, evidence and zone. -/
structure SenderPart where
  addr : Addr
  busy : Bool
  alert : Bool
  level : Int
  obs : Option (Byte × Nat × Byte)
  deriving DecidableEq, Repr

/-- The supervision limit (R74): 4 × the configured observation period + 30 s. -/
def supervisionLimit (period : Nat) : Ms := (4 * period + 30) * 1000

/-- The hold timer a frame sets (R69): 2000 ms when its busy flag is set, 0 when it is clear. -/
def holdOf (now : Us) (busy : Bool) : Timer := if busy then some (now + millis 2000) else none

/-- The link average after a further frame (R66); `/` on a positive divisor rounds toward minus infinity. -/
def linkAverage (avg level : Int) : Int := avg + (4 * level - avg) / 8

/-- R68: an OBSERVATION replaces the zone and the reported part, unless its code cannot be read as a state. -/
def Neighbour.report68 (ms : Ms) (obs : Option (Byte × Nat × Byte)) (n : Neighbour) : Neighbour :=
  match obs with
  | none => n
  | some (code, e, zone) =>
    match DetState.ofCode code with
    | none => n
    | some st => { n with zone := some zone, report := some { state := st, e := min 1000 e, heardAt := ms } }

/-- The status after a frame (R67). -/
def statusAfter (st : NeighbourStatus) (frames : Nat) : NeighbourStatus :=
  match st with
  | .new => if 3 ≤ frames then .live else .new
  | .live => .live
  | .lost => .live

/-- A frame from a sender held in the table (R66 to R69). -/
def Neighbour.heard (now : Us) (ms : Ms) (limit : Ms) (p : SenderPart) (n : Neighbour) : Neighbour :=
  Neighbour.report68 ms p.obs
    { n with
      avg := linkAverage n.avg p.level
      frames := min 255 (n.frames + 1)
      lastHeard := ms
      alert := p.alert
      hold := holdOf now p.busy
      supervision := some (ms + limit)
      status := statusAfter n.status (min 255 (n.frames + 1)) }

/-- The entry an admission makes (R71). -/
def Neighbour.admitted (now : Us) (ms : Ms) (limit : Ms) (p : SenderPart) : Neighbour :=
  Neighbour.report68 ms p.obs
    { addr := p.addr, zone := none, avg := 4 * p.level, frames := 1, lastHeard := ms, alert := p.alert, report := none,
      hold := holdOf now p.busy, supervision := some (ms + limit), status := .new }

/-- A protected entry (R72): it reported VERIFY or FIRE less than 60000 ms ago. -/
def Neighbour.isProtected (ms : Ms) (n : Neighbour) : Bool :=
  n.report.any (fun r => (decide (r.state = .verify) || decide (r.state = .fire)) && decide (ms - r.heardAt < 60000))

/-- The picking order of R72: lowest link average, then earliest last heard, then lowest address. -/
def evictBefore (a b : Neighbour) : Bool :=
  decide (a.avg < b.avg ∨ (a.avg = b.avg ∧
    (a.lastHeard < b.lastHeard ∨ (a.lastHeard = b.lastHeard ∧ a.addr.toNat < b.addr.toNat))))

/-- The eviction candidate for a newcomer of link level `level` (R72). -/
def evictionCandidate (ms : Ms) (level : Int) (nt : List Neighbour) : Option Neighbour :=
  let open_ := nt.filter (fun n => !n.isProtected ms)
  match leastBy evictBefore (open_.filter (fun n => decide (n.status ≠ .live))) with
  | some n => some n
  | none =>
    match leastBy evictBefore (open_.filter (fun n => decide (n.status = .live))) with
    | some n => if 4 * level ≥ n.avg + 24 then some n else none
    | none => none

/-- What the table does with a dispatched frame's sender. -/
inductive TableAnswer where
  | updated (cleared : Bool)
  | admitted
  | ignored
  | refused
  deriving DecidableEq, Repr

/-- The entry of an address. -/
def entryOf (a : Addr) (nt : List Neighbour) : Option Neighbour := nt.find? (fun n => decide (n.addr = a))

/-- The table after the sender's part of a dispatched frame (R65 to R73). `updated true` asks for NEIGHBOUR-LOST to be
cleared: the entry has become LIVE (R67). -/
def takeSender (now : Us) (ms : Ms) (limit : Ms) (p : SenderPart) (nt : List Neighbour) :
    TableAnswer × List Neighbour :=
  match entryOf p.addr nt with
  | some n =>
    (.updated (decide (n.status ≠ .live ∧ (n.heard now ms limit p).status = .live)),
      nt.map (fun m => if m.addr = p.addr then m.heard now ms limit p else m))
  | none =>
    if p.level < -95 then (.ignored, nt)
    else if nt.length < 16 then (.admitted, nt ++ [Neighbour.admitted now ms limit p])
    else
      match evictionCandidate ms p.level nt with
      | some n =>
        (.admitted, nt.filter (fun m => decide (m.addr ≠ n.addr)) ++ [Neighbour.admitted now ms limit p])
      | none => (.refused, nt)

/-! ## Queries (4.6) -/

/-- The any-hold-running query (R80). -/
def holdRunning (nt : List Neighbour) : Bool := nt.any (fun n => n.hold.isSome)

/-- The all-alert query (R79). -/
def allAlert (ms : Ms) (nt : List Neighbour) : Bool :=
  nt.any (fun n => decide (n.status = .live)) &&
    nt.all (fun n => decide (n.status ≠ .live) || (n.alert && decide (ms - n.lastHeard ≤ 2000)))

/-- The any-LIVE-same-zone query (R78). -/
def sameZoneLive (zone : Byte) (nt : List Neighbour) : Bool :=
  nt.any (fun n => decide (n.status = .live) && decide (n.zone = some zone))

/-- The neighbour-alarm query (R81). -/
def neighbourAlarm (ms : Ms) (nt : List Neighbour) : Bool :=
  nt.any (fun n => decide (n.status = .live) && n.report.any (fun r =>
    (decide (r.state = .verify) || decide (r.state = .fire)) && decide (ms - r.heardAt ≤ 10000)))

/-- The contribution of an entry at an evaluation (R48, R77). -/
def contribution (ms : Ms) (zone : Byte) (n : Neighbour) : Nat :=
  if n.status = .live ∧ n.zone = some zone then
    match n.report with
    | some r =>
      if r.state = .quiet then 0
      else if ms - r.heardAt ≤ 4000 then r.e
      else if ms - r.heardAt ≤ 10000 then r.e / 2
      else 0
    | none => 0
  else 0

/-- The contributions, largest first. -/
def contributions (ms : Ms) (zone : Byte) (nt : List Neighbour) : List Nat :=
  sortBy (fun a b => decide (b < a)) (nt.map (contribution ms zone))

/-- The corroboration score (R49): own evidence and the three largest contributions, at most 4000. -/
def corroboration (ms : Ms) (zone : Byte) (e : Nat) (nt : List Neighbour) : Nat :=
  min 4000 (e + ((contributions ms zone nt).take 3).sum)

/-- A contributing neighbour exists (R48). -/
def anyContributor (ms : Ms) (zone : Byte) (nt : List Neighbour) : Bool :=
  nt.any (fun n => decide (0 < contribution ms zone n))

end Sys2Proof.Machine
end

