-- ==== Sys2Proof/Machine/Seen.lean ====
section
/-! DEFINITION. The seen list as data (R140, R141): judging a flood, accepting it, expiry, room for a new entry, pins. -/
namespace Sys2Proof.Machine

/-- What the seen list says of a flood (R141). -/
inductive SeenVerdict where
  | accepted | duplicate | stale
  deriving DecidableEq, Repr

/-- An expired entry (R140): unpinned and last updated 300000 ms or more ago. -/
def SeenEntry.expired (ms : Ms) (e : SeenEntry) : Bool := decide (e.pins = 0 ∧ 300000 ≤ ms - e.updated)

/-- The seven sequences below `h`, nearest first (R140). -/
def seenWindow (h : BitVec 8) : List (BitVec 8) :=
  [h - 1, h - 2, h - 3, h - 4, h - 5, h - 6, h - 7]

/-- The outcome of R141 for a frame of an origin that has an entry. -/
def SeenEntry.judge (e : SeenEntry) (run seq : BitVec 8) : SeenVerdict :=
  if newer run e.run then .accepted
  else if older run e.run then .stale
  else if newer seq e.h then .accepted
  else if seq = e.h then .duplicate
  else if (seenWindow e.h).contains seq then
    if e.marks.contains seq then .duplicate else .accepted
  else .stale

/-- The entry after an acceptance (R141). -/
def SeenEntry.accept (ms : Ms) (run seq : BitVec 8) (e : SeenEntry) : SeenEntry :=
  if newer run e.run then { e with run := run, h := seq, marks := [], updated := ms }
  else if newer seq e.h then
    { e with
      h := seq
      marks := (seenWindow seq).filter (fun x => decide (x = e.h) || e.marks.contains x)
      updated := ms }
  else
    { e with marks := (seenWindow e.h).filter (fun x => decide (x = seq) || e.marks.contains x), updated := ms }

/-- The order in which unpinned entries give way (R140): earliest updated, then lowest origin. -/
def seenBefore (a b : SeenEntry) : Bool :=
  decide (a.updated < b.updated ∨ (a.updated = b.updated ∧ a.origin.toNat < b.origin.toNat))

/-- Room for a new entry (R140): with 24 entries the unpinned entry earliest updated is removed. -/
def seenRoom (l : List SeenEntry) : List SeenEntry :=
  if l.length < 24 then l
  else
    match leastBy seenBefore (l.filter (fun e => decide (e.pins = 0))) with
    | some e => l.filter (fun x => decide (x.origin ≠ e.origin))
    | none => l

/-- The seen list's outcome for a flood and the list after it (R140, R141): expired entries are removed at the look. -/
def seenTake (ms : Ms) (origin : Addr) (run seq : BitVec 8) (l : List SeenEntry) : SeenVerdict × List SeenEntry :=
  let fresh := l.filter (fun e => !e.expired ms)
  match fresh.find? (fun e => decide (e.origin = origin)) with
  | none =>
    (.accepted, seenRoom fresh ++ [{ origin := origin, run := run, h := seq, marks := [], updated := ms, pins := 0 }])
  | some e =>
    match e.judge run seq with
    | .accepted => (.accepted, fresh.map (fun x => if x.origin = origin then x.accept ms run seq else x))
    | v => (v, fresh)

/-- A pin added to an origin's entry (R148). -/
def seenPin (origin : Addr) (l : List SeenEntry) : List SeenEntry :=
  l.map (fun e => if e.origin = origin then { e with pins := e.pins + 1 } else e)

/-- A pin taken from an origin's entry (R149, R150). -/
def seenUnpin (origin : Addr) (l : List SeenEntry) : List SeenEntry :=
  l.map (fun e => if e.origin = origin then { e with pins := e.pins - 1 } else e)

end Sys2Proof.Machine
end

