-- ==== Sys2Proof/Machine/Transmit.lean ====
section
/-! DEFINITION. The transmit unit's queues, selection and offers (R117 to R119, R121, R124, R126), the claims and
originations of own frames (R110, R137, R138), the busy flag (R112) and the serving of waiters (R139). -/
namespace Sys2Proof.Machine

/-! ## Queues and places -/

/-- The class of the frame in progress: the class of its buffer (R117). -/
def State.currentClass (s : State) : Option FrameClass := s.tu.current.bind (fun e => (s.buf e.buf).cls)

/-- Whether the frame in progress is of class `c`. -/
def State.currentIs (c : FrameClass) (s : State) : Bool := decide (s.currentClass = some c)

/-- The places taken in the queue of a class (R117): its entries, and the frame in progress when it is of the class. -/
def State.placesTaken (s : State) (c : FrameClass) : Nat :=
  (match c with | .urgent => s.tu.urgent.length | .routine => s.tu.routine.length) +
    (if s.currentIs c then 1 else 0)

/-- Whether the queue of a class has a free place (R117): 4 urgent, 6 routine. -/
def State.placeFree (s : State) (c : FrameClass) : Bool :=
  match c with
  | .urgent => decide (s.placesTaken .urgent < 4)
  | .routine => decide (s.placesTaken .routine < 6)

/-- Whether an own frame of kind `k` stands in the routine queue or is the frame in progress (R118). -/
def State.ownInFlight (k : Byte) (s : State) : Bool :=
  (s.tu.current.toList ++ s.tu.routine).any (fun e =>
    decide (e.mark = .own) && decide (Frame.kind (s.buf e.buf).frame = k))

/-! ## Radio ownership -/

/-- The receive unit takes up the state its active list calls for (R102). -/
def State.takeUp (s : State) : State :=
  { s with radio := { s.radio with rx := if s.su.list = .alert then .listening else .off } }

/-- The TU leaves ASSESS, PREAMBLE or BODY and releases the radio (R99, R102). -/
def State.releaseTu (s : State) : State :=
  if s.radio.owner = .tu then { s with radio := { s.radio with owner := .none } }.takeUp else s

/-! ## Channel-blocked watch (R124) -/

/-- Whether the frame in progress is the leading urgent frame. -/
def State.currentLeads (s : State) : Bool :=
  s.currentIs .urgent && (decide (s.tu.phase = .backoff) || decide (s.tu.phase = .assess))

/-- The watch is started on the leading urgent frame, if there is one and the watch is stopped (R124). -/
def State.startWatch (s : State) : State :=
  match s.tu.watch with
  | .stopped =>
    if s.currentLeads then
      { s with tu := { s.tu with
          current := s.tu.current.map (fun e => { e with headTime := some s.ms })
          watch := .running (s.now + seconds 10) } }
    else
      match s.tu.urgent with
      | e :: rest =>
        { s with tu := { s.tu with
            urgent := { e with headTime := some s.ms } :: rest
            watch := .running (s.now + seconds 10) } }
      | [] => s
  | _ => s

/-- The watch is stopped when `e` is its frame (R124). -/
def State.stopWatchOf (e : TxEntry) (s : State) : State :=
  if e.headTime.isSome then { s with tu := { s.tu with watch := .stopped } } else s

/-! ## Selection and backoff -/

/-- The TU enters BACKOFF with a fresh draw (R121). -/
def State.enterBackoff (s : State) : State :=
  { s with tu := { s.tu with
      phase := .backoff
      waiting := false
      backoff := s.after
        (if s.currentIs .urgent then millis 5 * (1 + s.drawOf 4) else millis 10 * (1 + s.drawOf 16)) } }.drawn

/-- An entry leaves the head of its queue and becomes the frame in progress (R119). -/
def State.takeEntry (e : TxEntry) (s : State) : State :=
  ({ s with tu := { s.tu with current := some e } }.moveBuf e.buf .sending).enterBackoff

/-- The TU selects (R119): IDLE, the radio not held off; the urgent head, else the routine head when no hold runs. -/
def State.select (s : State) : State :=
  if s.tu.phase = .idle ∧ s.tu.current = none ∧ s.radio.owner ≠ .heldOff then
    match s.tu.urgent with
    | e :: rest => { s with tu := { s.tu with urgent := rest } }.takeEntry e
    | [] =>
      match s.tu.routine with
      | e :: rest =>
        if holdRunning s.nt then s else { s with tu := { s.tu with routine := rest } }.takeEntry e
      | [] => s
  else s

/-- The frame in progress stops in BACKOFF, ASSESS or PREAMBLE (R126, R127): its timer or waiting request, its
assessment guard or its carrier is stopped, and the radio is released. The TU is IDLE. -/
def State.stopOperation (s : State) : State :=
  ({ s with tu := { s.tu with phase := .idle, backoff := none, waiting := false, preambleEnd := none } }.stopGuard
    .assessment).releaseTu

/-- The frame in progress returns to the head of the queue of its class, its buffer to QUEUED (R114, R117). -/
def State.returnCurrent (s : State) : State :=
  match s.tu.current with
  | none => s
  | some e =>
    let s1 := s.moveBuf e.buf .queued
    if s.currentIs .urgent then
      { s1 with tu := { s1.tu with current := none, urgent := e :: s1.tu.urgent } }
    else { s1 with tu := { s1.tu with current := none, routine := e :: s1.tu.routine } }

/-- An accepted urgent offer preempts a routine frame in BACKOFF, ASSESS or PREAMBLE (R126). -/
def State.preempt (s : State) : State :=
  if s.currentIs .routine = true ∧ (s.tu.phase = .backoff ∨ s.tu.phase = .assess ∨ s.tu.phase = .preamble) then
    s.stopOperation.returnCurrent.count .txPreempted
  else s

/-- An offer for which a place is free is accepted (R118): the entry at the tail, the buffer QUEUED; an urgent one may
preempt; the TU selects if it is IDLE; the watch starts on a leading urgent frame. -/
def State.accept (b : Fin 8) (mark : OriginMark) (c : FrameClass) (s : State) : State :=
  let s1 := s.moveBuf b .queued
  match c with
  | .urgent =>
    let s2 : State := { s1 with tu := { s1.tu with
      urgent := s1.tu.urgent ++ [{ buf := b, mark := mark, deferrals := none, strikes := 0, headTime := none }] } }
    s2.preempt.select.startWatch
  | .routine =>
    let s2 : State := { s1 with tu := { s1.tu with
      routine := s1.tu.routine ++ [{ buf := b, mark := mark, deferrals := some 0, strikes := 0, headTime := none }] } }
    s2.select

/-! ## Originations -/

/-- The frame of an own origination as composed at its claim (R137). -/
def State.composeOwn (o : OwnFrame) (s : State) : List Byte :=
  match o with
  | .observation => Frame.compose s.cfg o.kind []
  | _ => Frame.compose s.cfg o.kind
      (floodHeader s.cfg s.fu.run s.fu.seqCounter s.fu.epoch ++
        o.payload s.counters (match s.mu.latched with | some l => l.v.toNat | none => 0))

/-- What an origination takes from the station's records (R137, R183): a flood takes the sequence and is recorded in the
seen list as if accepted; a HEALTH takes the counters, which are zeroed. -/
def State.recordOwn (o : OwnFrame) (s : State) : State :=
  match o with
  | .observation => s
  | _ =>
    let s1 := { s with fu := { s.fu with
      seqCounter := s.fu.seqCounter + 1
      seen := (seenTake s.ms s.cfg.address s.fu.run s.fu.seqCounter s.fu.seen).2 } }
    if o = .health then { s1 with counters := countersInitial } else s1

/-- An origination made, when the claim is allowed and a place is free (R137); none when it cannot be made (R138).
The busy flag is left to `recount`. -/
def State.originateBare (o : OwnFrame) (s : State) : Option State :=
  if s.pool.claimAllowed o.cls && s.placeFree o.cls then
    match s.pool.firstFree with
    | some b =>
      some (((s.setBuf b { state := .queued, cls := some o.cls, frame := s.composeOwn o, level := none }).recordOwn
        o).accept b .own o.cls)
    | none => none
  else none

/-- An OBSERVATION asked for at a raising of the busy flag (R60, R112). The flag is already raised, so the claim it may
make raises nothing further. -/
def State.busyObservation (s : State) : State :=
  if s.ownInFlight kindObservation then s else (s.originateBare .observation).getD s

/-- The RP recounts the FREE count and applies the busy flag rule (R109, R112); log 9. -/
def State.recount (s : State) : State :=
  let raised := busyAfter s.pool.busy s.pool.freeCount
  let s1 := { s with pool := { s.pool with busy := raised } }
  if raised && !s.pool.busy then s1.busyObservation else s1

/-- An origination, with the busy flag rule after it (R137, R112). -/
def State.originate (o : OwnFrame) (s : State) : Option State := (s.originateBare o).map State.recount

/-- The DU asks for an own OBSERVATION (R60): none is added while one is queued or in progress, and a request that
cannot be met is skipped (R138). -/
def State.requestObservation (s : State) : State :=
  if s.ownInFlight kindObservation then s else (s.originate .observation).getD s

/-- An urgent waiter joins at the end (R136). -/
def State.joinWaiters (w : Waiter) (s : State) : State :=
  { s with fu := { s.fu with waiters := s.fu.waiters ++ [w] } }

/-- A waiter leaves the waiters (R139). -/
def State.dropWaiter (w : Waiter) (s : State) : State :=
  { s with fu := { s.fu with waiters := s.fu.waiters.erase w } }

/-- A FIRE asked for (R51, R52): made, or pending, one at a time (R138). -/
def State.askFire (cause : FireCause) (evidence : Nat) (s : State) : State :=
  match s.originate (.fire cause evidence) with
  | some t => t
  | none =>
    if s.fu.waiters.any (fun w => match w with | .fire _ _ => true | _ => false) then s
    else s.joinWaiters (.fire cause evidence)

/-- A SILENCE asked for (R152): made, or pending, one at a time (R138). -/
def State.askSilence (s : State) : State :=
  match s.originate .silence with
  | some t => t
  | none => if s.fu.waiters.contains .silence then s else s.joinWaiters .silence

/-- A RESET asked for (R153): made, or pending with its epoch in place of any pending RESET (R138). -/
def State.askReset (s : State) : State :=
  match s.originate .reset with
  | some t => t
  | none =>
    ({ s with fu := { s.fu with
      waiters := s.fu.waiters.filter (fun w => match w with | .reset _ => false | _ => true) } }).joinWaiters
        (.reset s.fu.epoch)

/-- A PROFILE asked for (R154): made, or pending in place of any pending value (R138). -/
def State.askProfile (p : Profile) (s : State) : State :=
  match s.originate (.profile p) with
  | some t => t
  | none => { s with fu := { s.fu with pendingProfile := some p } }

/-- A HEALTH asked for (R183): made, or marked pending with no counter copied (R138). -/
def State.askHealth (s : State) : State :=
  match s.originate .health with
  | some t => t
  | none => { s with fu := { s.fu with pendingHealth := true } }

/-! ## Relay copies at the queues -/

/-- The relay wait record of a buffer. -/
def State.relayWaitOf (b : Fin 8) (s : State) : Option RelayWait :=
  s.fu.relayWaits.find? (fun w => decide (w.buf = b))

/-- A relay wait record is removed, with its waiter where it is one, and its pin taken (R139, R146, R149, R150). -/
def State.dropRelayWait (b : Fin 8) (s : State) : State :=
  match s.relayWaitOf b with
  | some w =>
    { s with fu := { s.fu with
        relayWaits := s.fu.relayWaits.filter (fun x => decide (x.buf ≠ b))
        waiters := s.fu.waiters.erase (.relay b)
        seen := seenUnpin w.origin s.fu.seen } }
  | none => s

/-! ## Serving the waiters (R139) -/

/-- One urgent waiter tried: a relay copy when an urgent place is free, an own origination when it can be made. -/
def State.serveOne (s : State) (w : Waiter) : State :=
  match w with
  | .relay b =>
    if s.placeFree .urgent then (s.dropRelayWait b).accept b .relay .urgent else s
  | .fire c e =>
    match s.originate (.fire c e) with
    | some t => t.dropWaiter w
    | none => s
  | .silence =>
    match s.originate .silence with
    | some t => t.dropWaiter w
    | none => s
  | .reset _ =>
    match s.originate .reset with
    | some t => t.dropWaiter w
    | none => s

/-- The pending PROFILE tried (R139). -/
def State.serveProfile (s : State) : State :=
  match s.fu.pendingProfile with
  | some p =>
    match s.originate (.profile p) with
    | some t => { t with fu := { t.fu with pendingProfile := none } }
    | none => s
  | none => s

/-- The pending HEALTH tried (R139). -/
def State.serveHealth (s : State) : State :=
  if s.fu.pendingHealth then
    match s.originate .health with
    | some t => { t with fu := { t.fu with pendingHealth := false } }
    | none => s
  else s

/-- The waiters served (R139): the urgent ones in the order they joined, then the pending PROFILE, then the HEALTH. -/
def State.serveWaiters (s : State) : State := (s.fu.waiters.foldl State.serveOne s).serveProfile.serveHealth

/-- A buffer moves into FREE, and the busy flag rule is applied (R109, R112). -/
def State.freeBuf (b : Fin 8) (s : State) : State := (s.setBuf b Buffer.empty).recount

/-- Buffers freed in one event, and the waiters served after (R109, R139). -/
def State.freeAll (bs : List (Fin 8)) (s : State) : State :=
  match bs with
  | [] => s
  | _ => (bs.foldl (fun t b => t.freeBuf b) s).serveWaiters

end Sys2Proof.Machine
end

