-- ==== Sys2Proof/Machine/Supervision.lean ====
section
/-! DEFINITION. The supervision unit's operations (chapter 10): the fault list, its reporting, the radio restart with its
history, and the counts of the battery watch and of completed scans. -/
namespace Sys2Proof.Machine

/-! ## The fault list (R172 to R175) -/

/-- The age order of records (R172): raised time, then code, then subject. -/
def recordBefore (a b : FaultRecord) : Bool :=
  decide (a.raisedAt < b.raisedAt ∨ (a.raisedAt = b.raisedAt ∧
    (a.code.code.toNat < b.code.code.toNat ∨ (a.code = b.code ∧ a.subject.toNat < b.subject.toNat))))

/-- Whether a record is the one of a pair of code and subject. -/
def FaultRecord.isFor (c : FaultCode) (subject : Addr) (r : FaultRecord) : Bool :=
  decide (r.code = c ∧ r.subject = subject)

/-- The record of a pair (R172: at most one). -/
def recordOf (c : FaultCode) (subject : Addr) (l : List FaultRecord) : Option FaultRecord := l.find? (·.isFor c subject)

/-- A record that has just been raised (R173). -/
def FaultRecord.raised (c : FaultCode) (subject : Addr) (now : Ms) : FaultRecord :=
  { code := c, subject := subject, active := true, reported := false, composed := false, raisedAt := now }

/-- What a raise does to the list (R173, R175): whether a record became ACTIVE, and the list and mark after. -/
def FaultLog.raise (c : FaultCode) (subject : Addr) (now : Ms) (f : FaultLog) : Bool × FaultLog :=
  match recordOf c subject f.records with
  | some r =>
    if r.active then (false, f)
    else (true, { f with records := f.records.map (fun x => if x.isFor c subject then .raised c subject now else x) })
  | none =>
    if f.records.length < 8 then (true, { f with records := f.records ++ [.raised c subject now] })
    else
      match leastBy recordBefore (f.records.filter (fun r => !r.active)) with
      | some old =>
        (true, { f with
          records := f.records.filter (fun x => !x.isFor old.code old.subject) ++ [.raised c subject now] })
      | none => (false, { f with storageLoss := true })

/-- What a clear does to the list (R174): whether a record became CLEARED, and the list after. -/
def FaultLog.clear (c : FaultCode) (subject : Addr) (f : FaultLog) : Bool × FaultLog :=
  match recordOf c subject f.records with
  | some r =>
    if r.active then
      (true, { f with records := f.records.map (fun x =>
        if x.isFor c subject then { x with active := false, reported := false, composed := false } else x) })
    else (false, f)
  | none => (false, f)

/-- The records a look chooses (R176): up to four with both marks clear, oldest first. -/
def FaultLog.candidates (f : FaultLog) : List FaultRecord :=
  (sortBy recordBefore (f.records.filter (fun r => !r.reported && !r.composed))).take 4

/-- The composed mark set on the chosen records (R176). -/
def FaultLog.compose (chosen : List FaultRecord) (f : FaultLog) : FaultLog :=
  { f with
    records := f.records.map (fun r => if chosen.any (fun x => x.isFor r.code r.subject) then { r with composed := true } else r)
    retry := none }

/-- The marks at a FAULT body end (R177): composed records are reported, reported CLEARED records leave the list, and
the storage-loss mark is cleared when that brings the list below 8. -/
def FaultLog.bodyEnded (f : FaultLog) : FaultLog :=
  let marked := f.records.map (fun r => if r.composed then { r with reported := true, composed := false } else r)
  let kept := marked.filter (fun r => r.active || !r.reported)
  { f with
    records := kept
    storageLoss := f.storageLoss && !(decide (kept.length < marked.length) && decide (kept.length < 8)) }

/-- Every composed mark cleared: an own FAULT left unsent (R177). -/
def FaultLog.unsent (f : FaultLog) : FaultLog :=
  { f with records := f.records.map (fun r => { r with composed := false }) }

/-- Every mark cleared: the RESET actions (R177). -/
def FaultLog.marksCleared (f : FaultLog) : FaultLog :=
  { f with records := f.records.map (fun r => { r with reported := false, composed := false }) }

/-! ## Reporting (R176) -/

/-- A reporting look (R176). -/
def State.look (s : State) : State :=
  if s.ownInFlight kindFault || s.faults.candidates.isEmpty then s
  else
    match s.originate (.fault (s.faults.candidates.map (fun r => (r.code, r.subject, r.active)))) with
    | some t => { t with faults := t.faults.compose s.faults.candidates }
    | none =>
      if s.faults.retry.isSome then s else { s with faults := { s.faults with retry := s.after (millis 2000) } }

/-- The low byte of a subject, as a status record carries it (R195). -/
def lowByte (a : Addr) : Byte := a.extractLsb' 0 8

/-- A raise request (R173): the list, the status record of a PANEL station, and a look when a record became ACTIVE. -/
def State.raise (c : FaultCode) (subject : Addr) (s : State) : State :=
  let r := s.faults.raise c subject s.ms
  let s1 := { s with faults := r.2 }
  if r.1 then (s1.panelRecord .faultRaised s.cfg.address s.cfg.zone c.code (lowByte subject)).look else s1

/-- A raise with the station's own address as subject. -/
def State.raiseOwn (c : FaultCode) (s : State) : State := s.raise c s.cfg.address

/-- A clear request (R174). -/
def State.clear (c : FaultCode) (subject : Addr) (s : State) : State :=
  let r := s.faults.clear c subject
  let s1 := { s with faults := r.2 }
  if r.1 then (s1.panelRecord .faultCleared s.cfg.address s.cfg.zone c.code (lowByte subject)).look else s1

/-- A clear with the station's own address as subject. -/
def State.clearOwn (c : FaultCode) (s : State) : State := s.clear c s.cfg.address

/-- The notice of an own FAULT body end (R177). -/
def State.faultBodyEnded (s : State) : State := { s with faults := s.faults.bodyEnded }.look

/-- The notice that an own FAULT left the TU unsent (R132, R177). -/
def State.faultUnsent (s : State) : State := { s with faults := s.faults.unsent }.look

/-- The marks cleared at the RESET actions (R177). -/
def State.faultMarksCleared (s : State) : State := { s with faults := s.faults.marksCleared }.look

/-! ## Frames that leave the TU unsent (R123, R132) -/

/-- Whether an entry is an own FAULT. -/
def State.isOwnFault (e : TxEntry) (s : State) : Bool :=
  decide (e.mark = .own) && decide (Frame.kind (s.buf e.buf).frame = kindFault)

/-- The owner of a frame that left unsent is told (R132): only an own FAULT's owner keeps state about it. -/
def State.tellUnsent (ownFault : Bool) (s : State) : State := if ownFault then s.faultUnsent else s

/-- A routine frame abandoned at its twelfth deferral (R123): TX-ABANDONED, its buffer to FREE, its owner told, and the
TU, IDLE, selects. The rules leave open whether the waiters or the unsent own FAULT's look come first: the model serves
the waiters first (log 39). TX-ABANDONED, and TX-DEFERRED before it, are counted before the waiters are served, an order
R183 leaves open (log 47). -/
def State.abandon (e : TxEntry) (s : State) : State :=
  let s1 := ({ s with tu := { s.tu with current := none, phase := .idle, backoff := none, waiting := false } }).count
    .txAbandoned
  ((s1.freeAll [e.buf]).tellUnsent (s.isOwnFault e)).select

/-- A busy assessment or busy answer (R122): TX-DEFERRED; a routine frame's deferral count increases, and its twelfth
abandons it (R123); otherwise the frame backs off again. -/
def State.busyAssessment (s : State) : State :=
  let s1 := s.count .txDeferred
  match s.tu.current with
  | none => s1
  | some e =>
    match e.deferrals with
    | none => s1.enterBackoff
    | some n =>
      let e1 := { e with deferrals := some (n + 1) }
      let s2 := { s1 with tu := { s1.tu with current := some e1 } }
      if 12 ≤ n + 1 then s2.abandon e1 else s2.enterBackoff

/-! ## Radio restart (R113, R114, R133, R170, R171) -/

/-- The restart history after a restart at `now` (R170): at most three times, oldest first. -/
def historyAfter (h : List Ms) (now : Ms) : List Ms := (if h.length < 3 then h else h.drop 1) ++ [now]

/-- Whether the history calls for RADIO-FAILED (R171). -/
def historyFails (h : List Ms) (now : Ms) : Bool :=
  decide (h.length = 3) && (match h with | t :: _ => decide (now - t < 600000) | [] => false)

/-- The SV's part of a restart (R170, R171). -/
def State.recordRestart (s : State) : State :=
  let s1 := { s with sv := { s.sv with
    history := historyAfter s.sv.history s.ms
    stall := s.after (seconds 60)
    failed := s.after (seconds 600) } }
  let s2 := s1.raiseOwn .radioStall
  if historyFails s1.sv.history s.ms then s2.raiseOwn .radioFailed else s2

/-- The urgent frame returned by a restart is watched afresh, and no other frame is (R124, R133). -/
def State.watchReturned (s : State) : State :=
  match s.tu.urgent.map (fun e => { e with headTime := none }) with
  | e :: rest =>
    { s with tu := { s.tu with
        urgent := { e with headTime := some s.ms } :: rest
        watch := .running (s.now + seconds 10) } }
  | [] => s

/-- The frame in progress at a restart (R114): `strike` charges it one; a third strike frees it, otherwise it returns to
the head of its queue. The buffers to free are given with the state. TX-ABANDONED is counted before they are freed (log 47).
A FIRE or SILENCE whose purge waits for its body end (R127) returns like any other when the restart cuts its body off: R127
names no body end then, and the model forgets the purge (log 49). -/
def State.restartFrame (strike : Bool) (s : State) : State × List (Fin 8) :=
  match s.tu.current with
  | none => (s, [])
  | some e =>
    if strike && decide (3 ≤ e.strikes + 1) then
      (({ s with tu := { s.tu with current := none } }).count .txAbandoned, [e.buf])
    else
      let s1 := { s with tu := { s.tu with
        current := some { e with strikes := if strike then e.strikes + 1 else e.strikes } } }
      if s1.currentIs .urgent then (s1.returnCurrent.watchReturned, []) else (s1.returnCurrent, [])

/-- The radio side put back to idle (R113, R115): the receive unit OFF, the radio held off, a calibration begun, the
receive, assessment and body guards stopped, the TU IDLE. -/
def State.radioDown (s : State) : State :=
  { s with
    radio := { owner := .heldOff, rx := .off, sampleEnd := none, waitSince := none, waitEnd := none, reception := none }
    guards := { s.guards with header := none, frame := none, assessment := none, body := none,
                              calibration := s.after (millis 3) }
    tu := { s.tu with phase := .idle, backoff := none, waiting := false, preambleEnd := none } }

/-- A radio restart (R113); `strike` when the body guard caused it (R114). In the one event the rules leave open the order
of the work that competes for buffers and places: the model frees the buffers and serves their waiters, then gives the
notice of an unsent own FAULT with its look, then starts the watch, then raises RADIO-STALL with its look (log 38). -/
def State.radioRestart (strike : Bool) (s : State) : State :=
  let rxBuf := (s.radio.reception.bind (·.buf)).toList
  let ownFault := s.tu.current.any (fun e => s.isOwnFault e)
  let r := s.radioDown.restartFrame strike
  let freed := r.2
  (((r.1.freeAll (rxBuf ++ freed)).tellUnsent (ownFault && !freed.isEmpty)).startWatch).recordRestart

/-! ## Battery watch (R178) and the scan-stall count (R15) -/

/-- The battery watch takes a supply code (R178). -/
def State.batteryWatch (v : Nat) (s : State) : State :=
  if v < s.cfg.lowBattery then
    let s1 := { s with sv := { s.sv with below := min 3 (s.sv.below + 1), above := 0 } }
    if s.sv.below = 2 then s1.raiseOwn .lowBattery else s1
  else if v ≤ s.cfg.lowBattery + 25 then { s with sv := { s.sv with below := 0, above := 0 } }
  else
    let s1 := { s with sv := { s.sv with below := 0, above := min 3 (s.sv.above + 1) } }
    if s.sv.above = 2 then s1.clearOwn .lowBattery else s1

/-- A completed scan told to the SV (R15): the count reaching 3 asks for SCAN-STALL to be cleared. -/
def State.scanCounted (s : State) : State :=
  let s1 := { s with sv := { s.sv with completedScans := min 3 (s.sv.completedScans + 1) } }
  if s.sv.completedScans = 2 then s1.clearOwn .scanStall else s1

/-- An abandoned scan told to the SV (R15): GUARD-EXPIRED, SCAN-STALL raised, the count to 0. -/
def State.scanAbandoned (s : State) : State :=
  ({ s with sv := { s.sv with completedScans := 0 } }.count .guardExpired).raiseOwn .scanStall

end Sys2Proof.Machine
end

