-- ==== Sys2Proof/Machine/Detection.lean ====
section
/-! DEFINITION. The detection unit's operations (chapter 3): transitions, declarations, profiles, the observation timer
and the notice of the RESET actions. -/
namespace Sys2Proof.Machine

/-! ## The fire origin list (R144) -/

/-- An origin is entered in the fire origin list, or the overflow flag is set (R144). An own address already listed in a
full list leaves list and flag as they stand, which R144 does not settle for the station's own declaration (log 40). -/
def State.enterFire (origin : Addr) (zone cause : Byte) (s : State) : State :=
  if s.fu.fires.any (fun f => decide (f.origin = origin)) then s
  else if s.fu.fires.length < 8 then
    let s1 : State := { s with fu := { s.fu with
      fires := s.fu.fires ++ [{ origin := origin, zone := zone, cause := cause, silenced := false }] } }
    s1.panelRecord .fireAdded origin zone cause 0
  else { s with fu := { s.fu with overflow := true } }

/-! ## Observation timer (R59) -/

/-- The duration the observation timer takes at a start, for the state standing (R59). -/
def State.observationTime (s : State) : Us :=
  if s.det.state = .quiet then seconds s.cfg.observationPeriod + seconds (s.drawOf 8) else seconds 4

/-- A draw is taken for the jitter only in QUIET (R59). -/
def State.observationDrawn (s : State) : State := if s.det.state = .quiet then s.drawn else s

/-- The observation timer started at station time `t` (R59). -/
def State.startObservationAt (t : Us) (s : State) : State :=
  { s with det := { s.det with observation := some (t + s.observationTime) } }.observationDrawn

/-- The observation timer restarted now (R47, R59). -/
def State.restartObservation (s : State) : State := s.startObservationAt s.now

/-! ## Profiles (R53 to R57) -/

/-- A profile taken into force (R55). -/
def State.takeProfile (p : Profile) (s : State) : State :=
  let s1 : State := { s with det := { s.det with
    profile := p
    serviceLimit := if p = Profile.service then s.after (seconds 14400) else none } }
  s1.requestObservation.panelRecord .profile s.cfg.address s.cfg.zone p.code 0

/-- A profile request (R54). -/
def State.profileRequest (p : Profile) (s : State) : State :=
  if s.cfg.serviceApplies then
    if s.det.state = .verify then
      if p = s.det.profile then
        { s with det := { s.det with
            pendingProfile := none
            serviceLimit := if p = Profile.service then s.after (seconds 14400) else s.det.serviceLimit } }
      else { s with det := { s.det with pendingProfile := some p } }
    else if p = s.det.profile then
      if p = Profile.service then { s with det := { s.det with serviceLimit := s.after (seconds 14400) } } else s
    else s.takeProfile p
  else s

/-- The pending profile taken into force at the end of VERIFY (R56). -/
def State.takePending (s : State) : State :=
  match s.det.pendingProfile with
  | some p => { s with det := { s.det with pendingProfile := none } }.takeProfile p
  | none => s

/-- The service limit's end (R57): NORMAL in the station's own name. -/
def State.serviceEnded (s : State) : State :=
  if s.det.profile = .normal then s
  else if s.det.state = .verify then { s with det := { s.det with pendingProfile := some .normal } }
  else s.takeProfile .normal

/-! ## Changes of state (R47) and declarations (R50, R51) -/

/-- The declaration (R50, R51): cause and evidence recorded, the refresh timer started, the station listed, and a FIRE
flood asked for. -/
def State.declare (cause : FireCause) (s : State) : State :=
  let s1 : State := { s with det := { s.det with
    cause := some cause
    evidence := some s.ev.e
    refresh := s.after (seconds 30) } }
  (s1.enterFire s.cfg.address s.cfg.zone cause.code).askFire cause s.ev.e

/-- The new state with both counts at 0, and the verify timer stopped on leaving VERIFY, started on entering (R43, R47). -/
def State.setDetState (st : DetState) (s : State) : State :=
  { s with det := { s.det with
      state := st
      hyst := 0
      sat := 0
      verifyStart := if st = .verify then some s.ms else none } }

/-- The end of every change of state (R47): the observation timer restarted and an OBSERVATION asked for. -/
def State.announceState (s : State) : State := s.restartObservation.requestObservation

/-- A change to QUIET, WATCH or VERIFY (R47). -/
def State.changeState (st : DetState) (s : State) : State :=
  let s1 := s.setDetState st
  (if s.det.state = .verify then s1.takePending else s1).announceState

/-- A change to FIRE with its declaration (R47, R50, R51). R47 does not order its actions: a pending profile, with its
OBSERVATION, is taken into force first, then the declaration asks for its FIRE, and the change's own OBSERVATION is asked for
last (log 36). -/
def State.enterFireState (cause : FireCause) (s : State) : State :=
  let s1 := s.setDetState .fire
  ((if s.det.state = .verify then s1.takePending else s1).declare cause).announceState

/-- The cause of a declaration by a VERIFY condition (R50). -/
def State.verifyCause (s : State) : FireCause :=
  if 0 < s.ev.esw then (if 0 < s.ev.eh then .smokeAndHeat else .smoke)
  else if 0 < s.ev.eh then .heatRate
  else if s.cfg.role = .heat then .heatRate else .smoke

/-! ## Transitions (R40 to R46) -/

/-- The verify timer's value (R44): milliseconds since VERIFY was entered, at most 255000. -/
def State.verifyTime (s : State) : Ms :=
  match s.det.verifyStart with
  | some t => min 255000 (s.ms - t)
  | none => 0

/-- The hysteresis count after an evaluation, for a falling level (R43, R45). -/
def hystAfter (count e level : Nat) : Nat := if e < level - 50 then count + 1 else 0

/-- The rule of WATCH (R43). -/
def State.watchRule (s : State) : State :=
  if s.levels.alarm ≤ s.ev.e then s.changeState .verify
  else
    let h := hystAfter s.det.hyst s.ev.e s.levels.watch
    if 3 ≤ h then s.changeState .quiet else { s with det := { s.det with hyst := h } }

/-- Whether a VERIFY condition for fire holds (R45, conditions 1 to 4), with the counts already updated. -/
def State.verifyFires (s : State) : Bool :=
  (decide (s.levels.confirm ≤ corroboration s.ms s.cfg.zone s.ev.e s.nt) && anyContributor s.ms s.cfg.zone s.nt) ||
  decide (8 ≤ s.det.sat) ||
  (!sameZoneLive s.cfg.zone s.nt && decide (s.cfg.verifySolo * 1000 ≤ s.verifyTime) &&
    decide (s.levels.alarm ≤ s.ev.e)) ||
  (decide (s.levels.verifyMax * 1000 ≤ s.verifyTime) && decide (s.levels.alarm ≤ s.ev.e))

/-- The two counts of VERIFY after an evaluation (R45). -/
def State.verifyCounts (s : State) : State :=
  { s with det := { s.det with
      sat := if s.ev.e = 1000 then s.det.sat + 1 else 0
      hyst := hystAfter s.det.hyst s.ev.e s.levels.alarm } }

/-- The rule of VERIFY (R45). -/
def State.verifyRule (s : State) : State :=
  let s1 := s.verifyCounts
  if s1.verifyFires then s1.enterFireState s1.verifyCause
  else if 3 ≤ s1.det.hyst then s1.changeState .watch
  else s1

/-- Step 4 of an evaluation (R40): the fixed-heat test on a temperature computed in it (R41), then the rule of the state
it was made in. -/
def State.transitions (theta : Option Int) (s : State) : State :=
  if s.det.state ≠ .fire ∧ theta.any (fun t => decide ((s.cfg.heatLimit : Int) ≤ t)) = true then
    s.enterFireState .heatFixed
  else
    match s.det.state with
    | .quiet => if s.levels.watch ≤ s.ev.e then s.changeState .watch else s
    | .watch => s.watchRule
    | .verify => s.verifyRule
    | .fire => s

/-- The temperature an evaluation computes (R30, R41): that of a valid heat part. -/
def SampleSet.computedTheta (set : SampleSet) : Option Int :=
  match set.heat with
  | some p => if p.status = .valid then some (temperature p.t) else none
  | none => none

/-- An evaluation (R17): figures, transitions, then the baselines, judged by the state it was made in. -/
def State.evaluate (set : SampleSet) (s : State) : State :=
  let s1 : State := { s with ev := s.ev.figures s.cfg set }
  let s2 := s1.transitions set.computedTheta
  let b := s2.ev.baselineStep s.det.state set.smoke
  let s3 := { s2 with ev := b.2 }
  if b.1 then s3.raiseOwn .chamber else s3

/-! ## Refresh (R52) and RESET notice (R58) -/

/-- The work of a refresh expiry (R52): another FIRE with the recorded cause and evidence. -/
def State.refreshFire (s : State) : State :=
  match s.det.cause, s.det.evidence with
  | some c, some e => s.askFire c e
  | _, _ => s

/-- The notice of the RESET actions (R58). -/
def State.resetNotice (s : State) : State :=
  let s1 : State := { s with det := { s.det with
    state := .quiet
    verifyStart := none
    hyst := 0
    sat := 0
    refresh := none
    cause := none
    evidence := none } }
  let s2 := if s.det.state = .verify then s1.takePending else s1
  if s.det.state = .quiet then s2 else s2.announceState

end Sys2Proof.Machine
end

