-- ==== Sys2Proof/Machine/Flooding.lean ====
section
/-! DEFINITION. The flood unit's operations (chapter 8): silence, the RESET actions and their purge, relay waits, the
judging of a dispatched flood, and the floods a PANEL station makes from its inputs. -/
namespace Sys2Proof.Machine

/-! ## Silence (R145) -/

/-- Every listed entry marked silenced and the overflow flag cleared (R145). -/
def State.silenceList (s : State) : State :=
  { s with fu := { s.fu with fires := s.fu.fires.map (fun f => { f with silenced := true }), overflow := false } }

/-- A silence brought by the station `origin` of zone `zone` (R145). -/
def State.silence (origin : Addr) (zone : Byte) (s : State) : State :=
  s.silenceList.panelRecord .silenced origin zone 0 0

/-! ## The RESET actions (R127, R146) -/

/-- The queued FIRE and SILENCE entries of an epoch older than `e` leave the urgent queue (R127), and the watch stops
when its frame is one of them. The buffers to free are given with the state. -/
def State.purgeQueued (e : BitVec 8) (s : State) : State × List (Fin 8) :=
  let gone := s.tu.urgent.filter (fun x => Frame.purgedBy e (s.buf x.buf).frame)
  ({ s with tu := { s.tu with
      urgent := s.tu.urgent.filter (fun x => !Frame.purgedBy e (s.buf x.buf).frame)
      watch := if gone.any (fun x => x.headTime.isSome) then .stopped else s.tu.watch } },
    gone.map (·.buf))

/-- The frame in progress is removed when it is such a frame and its body has not begun (R127). Of one in its body nothing is
kept: its body end is as if no purge had been made, and a radio restart that cuts the body off returns it (log 49). -/
def State.purgeCurrent (e : BitVec 8) (s : State) : State × List (Fin 8) :=
  match s.tu.current with
  | some x =>
    if Frame.purgedBy e (s.buf x.buf).frame ∧
        (s.tu.phase = .backoff ∨ s.tu.phase = .assess ∨ s.tu.phase = .preamble) then
      let s1 := s.stopOperation
      ({ s1 with tu := { s1.tu with current := none } }.stopWatchOf x, [x.buf])
    else (s, [])
  | none => (s, [])

/-- The relay waits, running or ended, of such frames are removed with their waiters and pins (R146). -/
def State.purgeWaits (e : BitVec 8) (s : State) : State × List (Fin 8) :=
  let gone := (s.fu.relayWaits.filter (fun w => Frame.purgedBy e (s.buf w.buf).frame)).map (·.buf)
  (gone.foldl (fun t b => t.dropRelayWait b) s, gone)

/-- The pending FIRE and SILENCE, and a pending RESET of an epoch older than `e`, are dropped (R146). -/
def State.purgePending (e : BitVec 8) (s : State) : State :=
  { s with fu := { s.fu with waiters := s.fu.waiters.filter (fun w =>
      match w with
      | .fire _ _ => false
      | .silence => false
      | .reset p => !older p e
      | .relay _ => true) } }

/-- The purge of the RESET actions (R127, R146): the buffers are freed, the waiters served, and the TU selects. -/
def State.purge (e : BitVec 8) (s : State) : State :=
  let q := s.purgeQueued e
  let c := q.1.purgeCurrent e
  let w := c.1.purgeWaits e
  ((w.1.purgePending e).freeAll (q.2 ++ c.2 ++ w.2)).select.startWatch

/-- The line unit's part of the RESET actions (R146, R194, R195): PANEL stations. -/
def State.resetLines (e : BitVec 8) (origin : Addr) (zone : Byte) (s : State) : State :=
  if s.isPanel then
    let s1 : State := { s with lu := { s.lu with remote := [], remoteOverflow := false } }
    s1.panelRecord .reset origin zone 0 e
  else s

/-- The RESET actions with epoch `e`, brought by the frame of `origin` or the station's own key (R146; order: log 11). -/
def State.resetActions (e : BitVec 8) (origin : Addr) (zone : Byte) (s : State) : State :=
  let s1 : State := { s with fu := { s.fu with epoch := e, fires := [], overflow := false } }
  (((s1.resetNotice).purge e).faultMarksCleared).resetLines e origin zone

/-! ## Relay waits (R148 to R150) -/

/-- A relay wait record's wait is marked ended. -/
def State.endRelayWait (b : Fin 8) (s : State) : State :=
  { s with fu := { s.fu with
      relayWaits := s.fu.relayWaits.map (fun w => if w.buf = b then { w with running := false } else w) } }

/-- A copy whose wait has ended is offered (R150). TX-ABANDONED of a dropped copy is counted before its buffer is freed and
the waiters are served, an order R183 leaves open (log 47). -/
def State.relayOffer (b : Fin 8) (s : State) : State :=
  match s.relayWaitOf b with
  | none => s
  | some w =>
    if s.placeFree w.cls then (s.dropRelayWait b).accept b .relay w.cls
    else
      match w.cls with
      | .urgent => if s.fu.waiters.contains (.relay b) then s else s.joinWaiters (.relay b)
      | .routine => (((s.dropRelayWait b).count .txAbandoned).freeAll [b])

/-- The relay wait drawn for a class (R148). -/
def State.relayWaitTime (c : FrameClass) (s : State) : Us :=
  match c with
  | .urgent => millis (8 * s.drawOf 8)
  | .routine => millis (50 * s.drawOf 16)

/-- The relay decision on an accepted flood in buffer `b` (R148): the copy made and its wait begun, or the buffer freed. -/
def State.relay (b : Fin 8) (s : State) : State :=
  let f := (s.buf b).frame
  if Frame.hops f < Frame.hopLimit f then
    let c := classOfKind (Frame.kind f)
    let wait := s.relayWaitTime c
    let s1 := s.setBuf b { s.buf b with state := .relayWait, frame := Frame.relayCopy s.cfg.address f }
    let s2 : State := { s1 with fu := { s1.fu with
      relayWaits := s1.fu.relayWaits ++
        [{ buf := b, origin := Frame.origin f, run := Frame.run f, seq := Frame.seq f, cls := c,
           endsAt := s.now + wait, copies := 0, running := true }]
      seen := seenPin (Frame.origin f) s1.fu.seen } }
    if wait = 0 then (s2.drawn.endRelayWait b).relayOffer b else s2.drawn
  else s.freeAll [b]

/-- A duplicate heard while its relay wait runs (R141, R149): the count, and the suppression of a routine relay at 2.
RELAY-SUPPRESSED is counted before the buffer is freed and the waiters are served, an order R183 leaves open (log 47). -/
def State.copyHeard (origin : Addr) (run seq : BitVec 8) (s : State) : State :=
  match s.fu.relayWaits.find? (fun w =>
      w.running && decide (w.origin = origin) && decide (w.run = run) && decide (w.seq = seq)) with
  | none => s
  | some w =>
    if w.cls = .routine ∧ 2 ≤ w.copies + 1 then
      ((s.dropRelayWait w.buf).count .relaySuppressed).freeAll [w.buf]
    else
      { s with fu := { s.fu with relayWaits := s.fu.relayWaits.map (fun x =>
          if x.buf = w.buf then { x with copies := min 255 (x.copies + 1) } else x) } }

/-! ## Dispatch of a flood (R141 to R143, R151) -/

/-- The kind action of an accepted flood (R143); a RESET's are the RESET actions of R142. -/
def State.kindAction (f : List Byte) (s : State) : State :=
  match (Frame.kind f).toNat with
  | 2 => s.enterFire (Frame.origin f) (Frame.originZone f) (Frame.body f 8)
  | 3 => s.silence (Frame.origin f) (Frame.originZone f)
  | 5 => s.profileRequest (Profile.ofCode (Frame.body f 8))
  | 6 =>
    if s.isPanel then
      (Frame.faultItems f).foldl (fun t i => t.remoteItem (Frame.origin f) (Frame.originZone f) i) s
    else s
  | _ => s

/-- Whether a kind's epoch is judged (R142): FIRE, SILENCE and RESET. -/
def epochJudged (k : Byte) : Bool := decide (classOfKind k = .urgent)

/-- An accepted flood judged by its epoch, acted on and relayed (R142, R143, R148). -/
def State.acceptFlood (b : Fin 8) (s : State) : State :=
  let f := (s.buf b).frame
  if epochJudged (Frame.kind f) then
    if newer (Frame.epoch f) s.fu.epoch then
      (((s.resetActions (Frame.epoch f) (Frame.origin f) (Frame.originZone f)).kindAction f)).relay b
    else if older (Frame.epoch f) s.fu.epoch then (s.count .rxStale).freeAll [b]
    else (s.kindAction f).relay b
  else (s.kindAction f).relay b

/-- The FU takes a dispatched flood in buffer `b` (R141). RX-DUPLICATE and RX-STALE are counted before the buffer is freed and
the waiters are served, an order R183 leaves open (log 47). -/
def State.floodDispatch (b : Fin 8) (s : State) : State :=
  let f := (s.buf b).frame
  let r := seenTake s.ms (Frame.origin f) (Frame.run f) (Frame.seq f) s.fu.seen
  let s1 : State := { s with fu := { s.fu with seen := r.2 } }
  match r.1 with
  | .accepted => s1.acceptFlood b
  | .duplicate => ((s1.count .rxDuplicate).copyHeard (Frame.origin f) (Frame.run f) (Frame.seq f)).freeAll [b]
  | .stale => (s1.count .rxStale).freeAll [b]

/-! ## Floods a PANEL station makes from its inputs (R152 to R154) -/

/-- A silence press (R152). -/
def State.silencePress (s : State) : State := (s.silence s.cfg.address s.cfg.zone).askSilence

/-- A reset press (R153). -/
def State.resetPress (s : State) : State :=
  (s.resetActions (s.fu.epoch + 1) s.cfg.address s.cfg.zone).askReset

/-- A change of the profile level (R154): the PROFILE is originated before the own detection unit is handed the profile,
an order R54 and R154 leave open (log 37). -/
def State.profileChange (p : Profile) (s : State) : State :=
  let s1 := (s.askProfile p).profileRequest p
  { s1 with fu := { s1.fu with profileRefresh := if p = Profile.service then s.after (seconds 1800) else none } }

/-- A profile refresh (R154): PROFILE(SERVICE) originated or pending, and the station's own DU told after it (log 37). -/
def State.profileRefreshed (s : State) : State := (s.askProfile .service).profileRequest .service

end Sys2Proof.Machine
end

