-- ==== Sys2Proof/Machine/Receive.lean ====
section
/-! DEFINITION. The receive unit, the arbiter's answers, validation and dispatch (chapter 6, R94 to R98), the neighbour
table's part of a dispatch (R65 to R73), and the transmit unit's channel access (R100, R122, R125, R128, R131). -/
namespace Sys2Proof.Machine

/-! ## The arbiter -/

/-- The receive unit releases the radio and takes up its state (R99, R102). -/
def State.releaseRx (s : State) : State :=
  { s with radio :=
      { owner := .none, rx := if s.su.list = .alert then .listening else .off, sampleEnd := none, waitSince := none,
        waitEnd := none, reception := none } }

/-- The receive unit enters RECEIVING and begins the wait for the delimiter (R104). -/
def State.enterReceiving (s : State) : State :=
  { s with radio :=
      { owner := .receiveUnit, rx := .receiving, sampleEnd := none, waitSince := some s.ms,
        waitEnd := s.after (millis 540), reception := none } }

/-- The TU is granted the radio and enters ASSESS under its guard (R100, R122). -/
def State.grant (s : State) : State :=
  let s1 : State := { s with
    radio := { s.radio with owner := .tu, rx := .off }
    tu := { s.tu with phase := .assess, waiting := false } }
  s1.startGuard .assessment (millis 2)

/-- A request to the arbiter waits (R100). -/
def State.holdRequest (s : State) : State := { s with tu := { s.tu with waiting := true } }

/-- The arbiter answers a request of the TU (R100). -/
def State.request (s : State) : State :=
  match s.radio.owner with
  | .heldOff => s.holdRequest
  | .none => s.grant
  | .receiveUnit => if s.radio.rx = .sampling then s.holdRequest else s.busyAssessment
  | .tu => s

/-- A channel sample asked for (R103): taken in OFF with ownership none, skipped or passed over otherwise. -/
def State.sample (s : State) : State :=
  if s.radio.rx = .off ∧ s.radio.owner = .none then
    { s with radio := { s.radio with owner := .receiveUnit, rx := .sampling, sampleEnd := s.after (millis 4) } }
  else s

/-- The active list has changed (R102): the receive unit takes up its state where nothing holds the radio. -/
def State.listChanged (s : State) : State := if s.radio.owner = .none then s.takeUp else s

/-- The end of a channel sample (R100, R103). -/
def State.sampleEnded (level : Int) (s : State) : State :=
  if -100 < level then
    let s1 := s.enterReceiving
    if s.tu.waiting then s1.busyAssessment else s1
  else
    let s1 := s.releaseRx
    if s.tu.waiting then s1.grant else s1

/-! ## Validation (R94 to R97) -/

/-- Check 6 (R95): the length is allowed for the kind, and an OBSERVATION's agrees with its parts-present byte. -/
def checkLength (f : List Byte) : Bool :=
  (allowedLengths (Frame.kind f)).contains (Frame.length f) &&
    (decide (Frame.kind f ≠ kindObservation) || decide (observationLength (Frame.body f 6) = Frame.length f))

/-- Check 7 (R95): the flood header and the kind's payload are well formed. -/
def checkFlood (f : List Byte) : Bool :=
  decide (Frame.kind f = kindObservation) ||
    (Addr.valid (Frame.origin f) && decide (Frame.hopLimit f ≠ 0) && decide (Frame.hops f ≤ Frame.hopLimit f) &&
      decide ((Frame.originRole f).toNat ≤ 3) &&
      (decide (Frame.kind f ≠ kindProfile) || decide ((Frame.body f 8).toNat ≤ 1)) &&
      (decide (Frame.kind f ≠ kindFault) ||
        (decide (1 ≤ (Frame.body f 8).toNat ∧ (Frame.body f 8).toNat ≤ 4) &&
          decide (Frame.length f = 9 + 4 * (Frame.body f 8).toNat) &&
          (Frame.faultItems f).all (fun i => decide (i.2.2.toNat ≤ 1)))))

/-- Check 8 (R97): the origin role has authority for the kind. -/
def checkAuthority (f : List Byte) : Bool :=
  match (Frame.kind f).toNat with
  | 2 => decide ((Frame.originRole f).toNat ≤ 1)
  | 3 => decide ((Frame.originRole f).toNat = 3)
  | 4 => decide ((Frame.originRole f).toNat = 3)
  | 5 => decide ((Frame.originRole f).toNat = 3)
  | _ => true

/-- Validation (R94): the counter of the first check that fails, or none for a valid frame. `taken` is the number of
bytes taken after the header. -/
def validate (c : ConfigRecord) (taken : Nat) (f : List Byte) : Option Counter :=
  if ¬ (7 ≤ f.length ∧ Frame.length f ≤ 48 ∧ taken = Frame.length f + 2) then some .rxFormat
  else if crc (Frame.covered f) ≠ Frame.crcField f then some .rxCrc
  else if Frame.networkId f ≠ c.networkId then some .rxFormat
  else if ¬ (Addr.valid (Frame.sender f) = true ∧ Frame.sender f ≠ c.address) then some .rxFormat
  else if ¬ (1 ≤ (Frame.kind f).toNat ∧ (Frame.kind f).toNat ≤ 7) then some .rxFormat
  else if ¬ checkLength f = true then some .rxFormat
  else if ¬ checkFlood f = true then some .rxFormat
  else if ¬ checkAuthority f = true then some .rxRefused
  else none

/-! ## Dispatch (R111) -/

/-- The sender's part of a valid frame (R65). -/
def senderPart (level : Int) (f : List Byte) : SenderPart :=
  { addr := Frame.sender f
    busy := Frame.busyFlag f
    alert := Frame.alertFlag f
    level := level
    obs := if Frame.kind f = kindObservation then
        some (Frame.body f 0, (le16 (Frame.body f 1) (Frame.body f 2)).toNat, Frame.body f 5)
      else none }

/-- The neighbour table takes the sender's part of a dispatched frame (R65 to R73). What it tells others is done with the
buffer still in DISPATCH: the clear of NEIGHBOUR-LOST with its reporting look, then the selection of R70, where no rule
orders either against the buffer's freeing (log 50). -/
def State.takeNeighbour (p : SenderPart) (s : State) : State :=
  let r := takeSender s.now s.ms (supervisionLimit s.cfg.observationPeriod) p s.nt
  let s1 : State := { s with nt := r.2 }
  let s2 :=
    match r.1 with
    | .updated true => s1.clear .neighbourLost p.addr
    | .refused => s1.count .neighbourRefused
    | _ => s1
  if holdRunning s.nt && !holdRunning r.2 then s2.select else s2

/-- A valid frame in buffer `b` is dispatched (R111). The look and the selection that the table's part brings come before an
OBSERVATION's buffer is freed and the waiters are served (log 50), and before the flood unit takes a flood (log 8). -/
def State.dispatch (b : Fin 8) (level : Int) (s : State) : State :=
  let f := (s.buf b).frame
  let s1 := ((s.moveBuf b .dispatch).count .rxGood).takeNeighbour (senderPart level f)
  if Frame.kind f = kindObservation then s1.freeAll [b] else s1.floodDispatch b

/-- The end of a frame in the claimed buffer `b` (R105): the radio is released, then the frame is validated and
dispatched, or counted and freed (log 8). The count comes before the freed buffer's waiters are served, so a pending HEALTH
among them carries it, where R183 leaves the order open (log 47). -/
def State.frameEnded (b : Fin 8) (level : Int) (taken : Nat) (s : State) : State :=
  let s1 := ((s.stopGuard .header).stopGuard .frame).releaseRx
  match validate s.cfg taken (s.buf b).frame with
  | some c => (s1.count c).freeAll [b]
  | none => s1.dispatch b level

/-- The end of a discarded frame (R106): the radio is released and nothing further is counted. -/
def State.discardEnded (s : State) : State := ((s.stopGuard .header).stopGuard .frame).releaseRx

/-! ## Taking a frame (R104 to R106) -/

/-- The delimiter found (R104, R105, R107): the level, clamped, and the two receive guards. -/
def State.delimiter (level : Int) (s : State) : State :=
  let s1 : State := { s with radio := { s.radio with
    waitSince := none
    waitEnd := none
    reception := some { level := max (-127) (min 0 level), latch := [], buf := none, refused := false, bodyLen := none } } }
  (s1.startGuard .header (millis 2)).startGuard .frame (millis 12)

/-- The reception in progress replaced. -/
def State.setReception (r : Reception) (s : State) : State :=
  { s with radio := { s.radio with reception := some r } }

/-- The kind byte's claim (R105, R106, R110). -/
def State.kindByte (r : Reception) (header : List Byte) (kind : Byte) (s : State) : State :=
  let c := classOfKind kind
  let refused := (s.setReception { r with latch := header, refused := true }).count .rxNobuf
  if s.pool.claimAllowed c then
    match s.pool.firstFree with
    | some b =>
      ((s.setReception { r with latch := header, buf := some b }).setBuf b
        { state := .receiving, cls := some c, frame := header, level := some r.level }).recount
    | none => refused
  else refused

/-- The seventh header byte (R105): the header guard stops; a body length above 48 ends the frame at once. -/
def State.headerEnd (r : Reception) (rest : List Byte) (len : Byte) (s : State) : State :=
  let s1 := s.stopGuard .header
  match r.buf with
  | some b =>
    let s2 := (s1.setFrame b ((s1.buf b).frame ++ rest)).setReception { r with bodyLen := some len }
    if 48 < len.toNat then s2.frameEnded b r.level 0 else s2
  | none =>
    if 48 < len.toNat then s1.discardEnded
    else s1.setReception { r with latch := r.latch ++ rest, bodyLen := some len }

/-- The bytes of a frame end that belong to the frame (R105, log 16): L + 2 after a whole header, or the header bytes
that came before the carrier was lost. -/
def frameRest (bodyLen : Option Byte) (rest : List Byte) : List Byte :=
  match bodyLen with
  | some len => rest.take (len.toNat + 2)
  | none => rest.take 3

/-- The number of bytes taken after the header (R94 check 1, R105). -/
def bytesTaken (bodyLen : Option Byte) (rest : List Byte) : Nat :=
  match bodyLen with
  | some len => (rest.take (len.toNat + 2)).length
  | none => 0

/-- The frame end of a reception past its kind byte (R105, R106). -/
def State.receptionEnd (r : Reception) (rest : List Byte) (s : State) : State :=
  match r.buf with
  | some b =>
    (s.setFrame b ((s.buf b).frame ++ frameRest r.bodyLen rest)).frameEnded b r.level (bytesTaken r.bodyLen rest)
  | none => s.discardEnded

/-! ## Preamble and body (R120, R125, R128, R131) -/

/-- The TU enters PREAMBLE (R124, R125): the watch of its frame stops, and starts on an urgent entry that stands queued. -/
def State.enterPreamble (s : State) : State :=
  let long := s.currentIs .urgent || !allAlert s.ms s.nt
  let s1 := s.stopGuard .assessment
  let s2 : State := { s1 with tu := { s1.tu with
    phase := .preamble
    longPreamble := long
    preambleEnd := s.after (preambleTime long)
    watch := if s.tu.current.any (fun e => e.headTime.isSome) then .stopped else s.tu.watch
    current := s.tu.current.map (fun e => { e with headTime := none }) } }
  s2.startWatch

/-- A routine frame that meets a running hold returns to the head of its queue; the TU is IDLE and selects (R120). -/
def State.holdReturn (s : State) : State := s.stopOperation.returnCurrent.select

/-- The whole body of an own OBSERVATION at its body start (R61, R89). -/
def State.observationBody (s : State) : List Byte :=
  let smoke := match s.ev.smoke, s.ev.ratio with
    | some sig, some r => if s.cfg.role = Role.multi then some (nat16Bytes sig ++ [BitVec.ofNat 8 r]) else none
    | _, _ => none
  let heat := if s.isDetector then s.ev.theta.map (fun t => int16Bytes t ++ int16Bytes s.ev.ror) else none
  [BitVec.ofNat 8 s.det.state.code] ++ nat16Bytes s.ev.e ++
    [s.fu.epoch, s.det.profile.code, s.cfg.zone, partsPresent smoke.isSome heat.isSome] ++
    smoke.getD [] ++ heat.getD []

/-- A frame with its flags and sender address settled at the body start (R87, R128). -/
def settleHeader (flags : Byte) (own : Addr) (f : List Byte) : List Byte :=
  ((f.set 3 flags).set 4 (own.extractLsb' 0 8)).set 5 (own.extractLsb' 8 8)

/-- The frame as it goes out at the body start (R128). -/
def State.bodyFrame (e : TxEntry) (s : State) : List Byte :=
  let f := (s.buf e.buf).frame
  let f1 := if e.mark = .own ∧ Frame.kind f = kindObservation then
      Frame.compose s.cfg kindObservation s.observationBody
    else f
  Frame.withCrc (settleHeader (headerFlags s.pool.busy s.alertListening s.cfg.role) s.cfg.address f1)

/-- The body start (R128, R130): the frame settled, the body guard started. -/
def State.bodyStart (e : TxEntry) (s : State) : State :=
  let f := s.bodyFrame e
  let s1 : State := { s with tu := { s.tu with
    phase := .body
    preambleEnd := none
    sentAlert := s.alertListening } }
  (s1.setFrame e.buf f).startGuard .body (bodyTime (Frame.length f) + millis 2)

/-- The SU is told of a body end (R131, R162): the commitment of a MULTI or HEAT station. -/
def State.commit (alert : Bool) (s : State) : State :=
  if alert && s.isDetector then { s with su := { s.su with commitment := s.after (millis 3000) } } else s

/-- The body end of entry `e` (R131; order: log 8). -/
def State.bodyEnded (e : TxEntry) (s : State) : State :=
  let urgent := s.currentIs .urgent
  let ownFault := s.isOwnFault e
  let s1 := s.count .txSent
  let s2 := if e.mark = .relay then s1.count .relaySent else s1
  let s3 := (s2.stopGuard .body).releaseTu
  let s4 : State := { s3 with tu := { s3.tu with current := none, phase := .idle } }
  let s5 := (s4.freeAll [e.buf]).commit s.tu.sentAlert
  let s6 := if ownFault then s5.faultBodyEnded else s5
  let s7 := if urgent then s6.clearOwn .channelBlocked else s6
  s7.select

/-- The carrier (R83, R84): on through a preamble and a body. -/
def State.carrierOn (s : State) : Bool := decide (s.tu.phase = .preamble) || decide (s.tu.phase = .body)

/-- The bit the carrier is keyed with now (R84, R125, R128): the preamble's pattern from the entry to PREAMBLE, then the
delimiter and the frame in the buffer from the body start, which stands 2 ms and the body time before its guard's end. -/
def State.keyedBit (s : State) : Option Bool :=
  match s.tu.phase with
  | .preamble => s.tu.preambleEnd.map (fun e => preambleBit ((s.now + preambleTime s.tu.longPreamble - e) / bitTime))
  | .body =>
    match s.tu.current, s.guards.body with
    | some x, some g =>
      let f := (s.buf x.buf).frame
      (Frame.onAir f)[(s.now + (bodyTime (Frame.length f) + millis 2) - g) / bitTime]?
    | _, _ => none
  | .idle => none
  | .backoff => none
  | .assess => none

end Sys2Proof.Machine
end

