-- ==== Sys2Proof/Machine/StartUp.lean ====
section
/-! DEFINITION. The self-test (10.6) and the start-up controller (chapter 11): reads of the configuration record, the
restart count, the start of the alert list, and the end of step 3. -/
namespace Sys2Proof.Machine

/-! ## Reads of the configuration record (R187, R181) -/

/-- A read attempt begins under its 100 ms guard (R187), with the next serial number (log 24). -/
def State.beginRead (number : Nat) (purpose : ReadPurpose) (s : State) : State :=
  let serial := s.sc.attempts + 1
  let s1 : State := { s with sc := { s.sc with
    read := some { number := number, serial := serial, purpose := purpose }
    attempts := serial } }
  s1.startGuard .configRead (millis 100)

/-- The station becomes inert (R188, R191). -/
def State.becomeInert (s : State) : State :=
  { s with sc := { s.sc with read := none, inert := true } }.ledChoose

/-! ## Self-test (R179 to R181) -/

/-- The subject of an item's SELF-TEST record (R180): the own address with its low byte replaced by the item number. -/
def itemSubject (own : Addr) (item : Nat) : Addr := (own &&& 0xFF00) ||| BitVec.ofNat 16 item

/-- An item of the self-test recorded (R180, R181): cleared when passed, raised when failed. -/
def State.recordItem (item : Nat) (passed : Bool) (s : State) : State :=
  if passed then s.clear .selfTest (itemSubject s.cfg.address item) else s.raise .selfTest (itemSubject s.cfg.address item)

/-- The scan items a role checks (R179). -/
def scanItems (role : Role) : List Nat :=
  match role with
  | .multi => [1, 2, 3, 4, 5]
  | .heat => [4, 5]
  | .relay => [5]
  | .panel => [5]

/-- A corrected code within half and double its baseline (R179, R180), bounds inclusive. -/
def withinBaseline (corrected base : Nat) : Bool := decide (base / 32 ≤ corrected ∧ corrected ≤ base / 8)

/-- Whether an item passes on a set (R179, R180); items 2 and 3 pass while the detection unit learns. -/
def itemPasses (lowBattery : Nat) (v : Evidence) (set : SampleSet) (item : Nat) : Bool :=
  match item with
  | 1 => set.smoke.any (fun p => decide (p.d.toNat ≤ 100))
  | 2 => set.smoke.any (fun p => v.learning || withinBaseline (darkCorrect p.i p.d) v.ibase)
  | 3 => set.smoke.any (fun p => v.learning || withinBaseline (darkCorrect p.b p.d) v.bbase)
  | 4 => set.heat.any (fun p => decide (100 ≤ p.t.toNat ∧ p.t.toNat ≤ 900))
  | 5 => decide (lowBattery ≤ set.v.toNat)
  | _ => false

/-- The self-test takes the notice of its scan's end (R180): the items recorded in ascending item number, each with its
own look, then the re-read; R180 gives the items of one notice no order (log 46). `set` is none for an abandoned scan, on
which every scan item fails. -/
def State.selfTestNotice (set : Option SampleSet) (s : State) : State :=
  let ev := s.ev
  let s1 := (scanItems s.cfg.role).foldl
    (fun t k => t.recordItem k (set.any (fun x => itemPasses t.cfg.lowBattery ev x k))) s
  let s2 : State := { s1 with sv := { s1.sv with selfTest := .reading } }
  s2.beginRead 1 .selfTest

/-- The self-test takes the answer of the re-read, and ends (R181). -/
def State.selfTestAnswer (good : Bool) (s : State) : State :=
  let s1 := s.recordItem 6 good
  { s1 with sv := { s1.sv with selfTest := .idle, selfTestEnded := true } }

/-- A self-test is started (R179): ignored while one is in progress. -/
def State.startSelfTest (s : State) : State :=
  if s.sv.selfTest = SelfTest.idle then
    let s1 : State := { s with sv := { s.sv with selfTest := .scanning } }
    s1.requestScan .selfTest
  else s

/-! ## Step 3 and its end (R190, R193) -/

/-- The start of the alert list, its timers and its first scan request (R156, R167, R190, R31, R183). -/
def State.startList (s : State) : State :=
  let s1 : State := { s with
    su := { s.su with
      list := .alert
      position := 1
      nextBoundary := s.after (millis 500)
      startWindow := if s.isDetector then s.after (millis 30000) else none }
    ev := { s.ev with heatTick := if s.isDetector then s.after (millis 8000) else none }
    sv := { s.sv with health := s.after (seconds (3600 * s.cfg.healthPeriod)) } }
  s1.listChanged.requestScan .schedule

/-- The line unit's reading of the profile line at the end of step 3 (R193). -/
def State.readProfileLine (s : State) : State :=
  if s.isPanel && s.lu.profileLine.level then s.profileChange .service else s

/-- The event that ends step 3 (R190, R193): the first OBSERVATION and its timer, a self-test, and last the line unit's
reading of the profile line, whose place among them the rules leave open (log 44). -/
def State.endStep3 (s : State) : State :=
  let s1 : State := { s with sc := { s.sc with learning := .ended, learnLimit := none } }
  (s1.restartObservation.requestObservation.startSelfTest).readProfileLine

/-- Step 3 (R190): on a MULTI station learning begins under its limit; the other roles end the step at once. -/
def State.step3 (s : State) : State :=
  let s1 := s.startList
  if s1.isMulti then
    let s2 : State := { s1 with sc := { s1.sc with learning := .learning, learnLimit := s1.after (millis 60000) } }
    s2.requestScan .learning
  else s1.endStep3

/-- The learning sequence takes the notice of a latched set it awaits (R190): the eighth VALID set ends step 3. -/
def State.learningNotice (set : SampleSet) (s : State) : State :=
  if s.sc.learning = LearnProgress.learning ∧ set.smoke.any (fun p => decide (p.status = .valid)) = true then
    let s1 : State := { s with sc := { s.sc with learnCount := min 8 (s.sc.learnCount + 1) } }
    if 8 ≤ s.sc.learnCount + 1 then s1.endStep3 else s1
  else s

/-! ## Steps 1 and 2 (R187, R189) -/

/-- The evidence state of a role's first evaluation (R36). -/
def Evidence.ofRole (role : Role) : Evidence :=
  match role with
  | .multi => { Evidence.initial with learning := true, smoke := some 0, ratio := some 63 }
  | .heat => Evidence.initial
  | .relay => Evidence.initial
  | .panel => Evidence.initial

/-- The record applied and the restart-count write begun under its 50 ms guard (R186, R189, R136). -/
def State.applyRecord (c : ConfigRecord) (bytes : List Byte) (s : State) : State :=
  let s1 : State := { s with
    sc := { s.sc with config := some c, bytes := some bytes, read := none, write := some (Record.countWrite bytes) }
    ev := Evidence.ofRole c.role
    fu := { s.fu with run := c.restartCount + 1 } }
  s1.startGuard .restartWrite (millis 50)

/-- A good attempt (R187, R181). -/
def State.readGood (r : ReadAttempt) (bytes : List Byte) (s : State) : State :=
  match r.purpose with
  | .startUp =>
    match Record.apply bytes with
    | some c => s.applyRecord c bytes
    | none => { s with sc := { s.sc with bytes := some bytes } }.becomeInert
  | .selfTest => { s with sc := { s.sc with read := none } }.selfTestAnswer true

/-- A failed attempt (R187, R181): the next at once, up to three in all. -/
def State.readFailed (r : ReadAttempt) (s : State) : State :=
  if r.number < 3 then s.beginRead (r.number + 1) r.purpose
  else
    match r.purpose with
    | .startUp => s.becomeInert
    | .selfTest => { s with sc := { s.sc with read := none } }.selfTestAnswer false

/-- The end of a read attempt (R187). -/
def State.readEnded (r : ReadAttempt) (bytes : List Byte) (s : State) : State :=
  let s1 := s.stopGuard .configRead
  if Record.good bytes then s1.readGood r bytes else s1.readFailed r

/-- The end of the restart-count write (R189). -/
def State.writeEnded (s : State) : State :=
  let s1 : State := { s with sc := { s.sc with write := none, written := s.sc.write } }
  (s1.stopGuard .restartWrite).step3

/-- The restart-count write's guard expired (R189): what stands in the memory is not known. -/
def State.writeFailed (s : State) : State :=
  let s1 : State := { s with sc := { s.sc with write := none, written := none } }
  ((s1.count .guardExpired).raiseOwn .configWrite).step3

end Sys2Proof.Machine
end

