-- ==== Sys2Proof/Machine/Completion.lean ====
section
/-! DEFINITION. The end of a scan (1.5, 1.7): its completion, handed on to every recipient, and its abandonment. -/
namespace Sys2Proof.Machine

/-- What a part's validity run asks of the fault list (R11). -/
def State.askRun (q : RunRequest) (c : FaultCode) (s : State) : State :=
  match q with
  | .nothing => s
  | .raise => s.raiseOwn c
  | .clear => s.clearOwn c

/-- The smoke part's validity run takes a latched set (R11). -/
def State.smokeRunTakes (set : SampleSet) (s : State) : State :=
  match set.smoke with
  | some p =>
    let r := s.mu.smokeRun.take p.status
    { s with mu := { s.mu with smokeRun := r.2 } }.askRun r.1 .chamber
  | none => s

/-- The heat part's validity run takes a latched set (R11). -/
def State.heatRunTakes (set : SampleSet) (s : State) : State :=
  match set.heat with
  | some p =>
    let r := s.mu.heatRun.take p.status
    { s with mu := { s.mu with heatRun := r.2 } }.askRun r.1 .heatSensor
  | none => s

/-- The latched set goes to its recipients (R7), in the order of log 7: the detection unit, the battery watch and the
completed-scan count, the validity runs, the learning sequence, the self-test. -/
def State.handOn (x : Scan) (set : SampleSet) (s : State) : State :=
  let s1 := if s.isDetector then s.evaluate set else s
  let s2 := (s1.batteryWatch set.v.toNat).scanCounted
  let s3 := (s2.smokeRunTakes set).heatRunTakes set
  let s4 := if x.awaitedLearning then s3.learningNotice set else s3
  if x.awaitedSelfTest then s4.selfTestNotice (some set) else s4

/-- The completion of the scan in flight (R7). -/
def State.scanCompleted (x : Scan) (d i b t v : Code) (s : State) : State :=
  let set := sampleSet s.cfg.role x.seq d i b t v
  (s.latch set).handOn x set

/-- The abandonment of the scan in flight (R14, R15, R180): SCAN-STALL with its look first, then the self-test's items,
an order the rules leave open (log 35). -/
def State.abandonScan (s : State) : State :=
  match s.mu.scan with
  | none => s
  | some x =>
    let s1 : State := { s with mu := { s.mu with scan := none } }
    let s2 := s1.scanAbandoned
    if x.awaitedSelfTest then s2.selfTestNotice none else s2

end Sys2Proof.Machine
end

