-- ==== Sys2Proof/Machine/Schedule.lean ====
section
/-! DEFINITION. The schedule unit's operations (chapter 9): the alert causes, the boundary's work, the lists and the
power states. -/
namespace Sys2Proof.Machine

/-! ## Alert causes (R159) -/

/-- The look finds a cause (R159). -/
def State.alertCause (s : State) : Bool :=
  decide (s.det.state ≠ .quiet) || s.fireListed || neighbourAlarm s.ms s.nt || s.su.startWindow.isSome ||
    decide (s.sv.selfTest ≠ .idle) || s.sv.selfTestEnded

/-! ## Entries and lists (R156 to R158, R160, R161, R163) -/

/-- The entry the active list calls for begins (R157, R158, R190). -/
def State.beginEntry (s : State) : State :=
  match s.su.list with
  | .none => s
  | .quiet =>
    let s1 := s.sample
    if s.su.position = 1 then s1.requestScan .schedule else s1
  | .alert =>
    let s1 := s.requestScan .schedule
    if s.sc.learning = LearnProgress.learning then s1.requestScan .learning else s1

/-- The number of entries of a list (R156). -/
def ActiveList.entries : ActiveList → Nat
  | .none => 0
  | .quiet => 4
  | .alert => 2

/-- The position after the current entry ends (R156, R157). -/
def State.advance (s : State) : State :=
  { s with su := { s.su with position := if s.su.position < s.su.list.entries then s.su.position + 1 else 1 } }

/-- A switch to another list, at its entry 1, with the alert hold stopped (R160, R163, R102). -/
def State.switchTo (l : ActiveList) (s : State) : State :=
  { s with su := { s.su with list := l, position := 1, hold := .stopped } }.listChanged

/-- The alert hold timer after a look on the alert list (R161). -/
def holdAfter (cause : Bool) (now : Us) (h : AlertHold) : AlertHold :=
  if cause then .stopped
  else
    match h with
    | .stopped => .running (now + millis 60000)
    | h => h

/-- The conditions of the switch to the quiet list (R163), with the hold as the look has set it. -/
def State.leavesAlert (cause : Bool) (s : State) : Bool :=
  !cause && decide (s.su.hold = .runOut) && s.su.commitment.isNone &&
    !(decide (s.tu.phase = .body) && s.tu.sentAlert)

/-- The alert-list part of a boundary of a MULTI or HEAT station (R161, R163). -/
def State.alertBoundary (cause : Bool) (s : State) : State :=
  let s1 : State := { s with su := { s.su with hold := holdAfter cause s.now s.su.hold } }
  if s1.leavesAlert cause then (s1.switchTo .quiet).beginEntry else s1.advance.beginEntry

/-- The quiet-list part of a boundary (R160). -/
def State.quietBoundary (cause : Bool) (s : State) : State :=
  if cause then (s.switchTo .alert).beginEntry else s.advance.beginEntry

/-- The work of an entry boundary (R156, R158, R159). The look takes the mark of a self-test that has ended. -/
def State.boundaryWork (s : State) : State :=
  if s.isDetector then
    let s1 : State := { s with sv := { s.sv with selfTestEnded := false } }
    match s.su.list with
    | .none => s
    | .quiet => s1.quietBoundary s.alertCause
    | .alert => s1.alertBoundary s.alertCause
  else
    match s.su.list with
    | .none => s
    | .quiet => s.advance.beginEntry
    | .alert => s.advance.beginEntry

/-! ## Power (R164 to R166) -/

/-- The settle time (R166): 0.5, 1, 2 or 4 ms. -/
def settleTime (code : Nat) : Us := 500 * 2 ^ code

/-- The TU is idle or waiting on a timer (R134). -/
def State.tuWaits (s : State) : Bool :=
  decide (s.tu.phase = .idle) || (decide (s.tu.phase = .backoff) && s.tu.backoff.isSome)

/-- The conditions under which a station in RUN enters DOZE (R164). -/
def State.mayDoze (s : State) : Bool :=
  decide (s.su.list = .quiet) && s.mu.scan.isNone && decide (s.radio.rx = .off) &&
    decide (s.radio.owner ≠ .heldOff) && s.tuWaits && s.pool.bufs.toList.all (fun b => decide (b.state ≠ .dispatch)) &&
    s.su.settleEnd.isNone && s.sc.read.isNone && s.sc.write.isNone &&
    s.su.nextBoundary.any (fun t => decide (s.now + settleTime s.cfg.settleCode < t))

/-- The SU stops the main oscillator when the conditions hold (R164). -/
def State.enterDoze (s : State) : State :=
  if s.su.power = Power.run ∧ s.mayDoze = true then { s with su := { s.su with power := .doze } } else s

/-- A station in DOZE leaves it, its settle begun (R165, R166). -/
def State.leaveDoze (s : State) : State :=
  match s.su.power with
  | .run => s
  | .doze => { s with su := { s.su with power := .run, settleEnd := s.after (settleTime s.cfg.settleCode) } }

/-- Work held until the settle end (R166, R169). -/
def State.holdWork (w : HeldWork) (s : State) : State := { s with su := { s.su with held := s.su.held ++ [w] } }

/-- Whether the main oscillator runs settled: in RUN with no settle in progress (R166). -/
def State.settled (s : State) : Bool := decide (s.su.power = .run) && s.su.settleEnd.isNone

end Sys2Proof.Machine
end

