-- ==== Sys2Proof/Machine/Work.lean ====
section
/-! DEFINITION. The work that timers and boundaries start, done at once or held until the settle end (R165, R166, R169),
and the frame of one event: station time, the command's effect, and what follows every event. -/
namespace Sys2Proof.Machine

/-! ## Guard consequences (R168) -/

/-- The configuration read's guard expired (R187, R181). -/
def State.readExpired (s : State) : State :=
  match s.sc.read with
  | some r => (s.count .guardExpired).readFailed r
  | none => s

/-- The consequence of a guard's expiry, with its GUARD-EXPIRED (R168). R168 takes the two in either order: the count comes
first, so a pending HEALTH served by the buffers a restart frees carries it (log 47). -/
def State.guardConsequence (g : GuardName) (s : State) : State :=
  match g with
  | .scan => s.abandonScan
  | .header => (s.count .guardExpired).radioRestart false
  | .frame => (s.count .guardExpired).radioRestart false
  | .assessment => (s.count .guardExpired).radioRestart false
  | .body => (s.count .guardExpired).radioRestart true
  | .calibration => (s.count .guardExpired).radioRestart false
  | .configRead => s.readExpired
  | .restartWrite => s.writeFailed

/-! ## The work of each expiry -/

/-- The hold check and the request of a backoff that has ended (R120, R121). -/
def State.backoffEnded (s : State) : State :=
  if s.tu.phase = TxPhase.backoff ∧ s.tu.backoff = none ∧ s.tu.waiting = false then
    if s.currentIs .routine && holdRunning s.nt then s.holdReturn else s.request
  else s

/-- The push of a heat tick (R32). -/
def State.heatPush (s : State) : State :=
  match s.ev.candidate with
  | some t => { s with ev := { s.ev with ring := ringPush s.ev.ring t, candidate := none } }
  | none => s

/-- The notice of an ended hold (R70): the TU selects when no hold runs. -/
def State.holdEnded (s : State) : State := if holdRunning s.nt then s else s.select

/-- An entry becomes LOST (R75). -/
def loseEntry (a : Addr) (nt : List Neighbour) : List Neighbour :=
  nt.map (fun n => if n.addr = a then { n with status := .lost } else n)

/-- An entry is removed from the table (R76). -/
def removeEntry (a : Addr) (nt : List Neighbour) : List Neighbour := nt.filter (fun n => decide (n.addr ≠ a))

/-- The loss or removal of an entry whose supervision expiry has fallen (R75, R76). -/
def State.supervisionFell (a : Addr) (s : State) : State :=
  match entryOf a s.nt with
  | none => s
  | some n =>
    if n.supervision.isSome then s
    else
      match n.status with
      | .live => { s with nt := loseEntry a s.nt }.raise .neighbourLost a
      | .new =>
        let s1 : State := { s with nt := removeEntry a s.nt }
        if holdRunning s.nt && !holdRunning s1.nt then s1.select else s1
      | .lost => s

/-- The work of the failed timer (R171). -/
def State.failedEnded (s : State) : State :=
  { s with sv := { s.sv with history := [] } }.clearOwn .radioFailed

/-- A short press (R191, R192). -/
def State.shortPress (pressedAt : Us) (s : State) : State := (s.showStatePattern pressedAt).requestObservation

/-- The work an expiry, a boundary or a press starts. -/
def State.perform (w : HeldWork) (s : State) : State :=
  match w with
  | .backoffEnd => s.backoffEnded
  | .relayOffer b => s.relayOffer b
  | .heatPush => s.heatPush
  | .observation => s.requestObservation
  | .refresh => s.refreshFire
  | .serviceLimit => s.serviceEnded
  | .holdEnded => s.holdEnded
  | .supervision a => s.supervisionFell a
  | .health => s.askHealth
  | .guardExpired g => s.guardConsequence g
  | .boundary => s.boundaryWork
  | .stallEnded => s.clearOwn .radioStall
  | .failedEnded => s.failedEnded
  | .reportRetry => s.look
  | .channelBlocked => s.raiseOwn .channelBlocked
  | .shortPress t => s.shortPress t
  | .longPress => s.startSelfTest
  | .silencePress => s.silencePress
  | .resetPress => s.resetPress
  | .profileChange p => s.profileChange p

/-! ## At once, or held (R165, R166, R169) -/

/-- The work of a wake event or a boundary: it makes a station in DOZE leave it, and is held until the settle end there
and while a settle is in progress; otherwise it is done at once (R165, R166). -/
def State.wakeWork (w : HeldWork) (s : State) : State :=
  if s.settled then s.perform w else s.leaveDoze.holdWork w

/-- The work of a timer that is no wake event: held in DOZE until the settle end that follows, done at once in RUN (R169,
R192, log 14). -/
def State.timerWork (w : HeldWork) (s : State) : State :=
  match s.su.power with
  | .doze => s.holdWork w
  | .run => s.perform w

/-- The settle end (R166): the held work is done, in the order in which it was held (log 13). -/
def State.endSettle (s : State) : State :=
  let s1 : State := { s with su := { s.su with settleEnd := none, held := [] } }
  s.su.held.foldl (fun t w => t.perform w) s1

/-! ## One event -/

/-- The LED's choice at a change of the fire origin list or the overflow flag (R191), against their values before. -/
def State.ledFollows (fires : List FireOrigin) (overflow : Bool) (s : State) : State :=
  if s.fu.fires = fires ∧ s.fu.overflow = overflow then s else s.ledChoose

/-- What follows every event: the LED's choice, the lines that follow their conditions (R145, R194), and the entry to
DOZE (R164). `s0` is the state before the event. -/
def State.finish (s0 s : State) : State := ((s.ledFollows s0.fu.fires s0.fu.overflow).driveLines).enterDoze

/-- One event: `dt` of station time passes, the command has its effect, and what follows every event follows. -/
def State.event (dt : Us) (effect : State → State) (s : State) : Host.Outcome State Fault Refusal :=
  .next (State.finish s (effect (s.elapse dt)))

end Sys2Proof.Machine
end

