-- ==== Sys2Proof/Machine/DetectionCommands.lean ====
section
/-! DEFINITION. The detection unit's timers (chapters 2 and 3). -/
namespace Sys2Proof.Machine

/-- HEAT_TICK (R32): the next period runs from the expiry (R165). -/
def execHeatTick (dt : Us) (s : State) : Host.Outcome State Fault Refusal :=
  s.event dt fun t =>
    if t.due t.ev.heatTick then
      let t1 : State := { t with ev := { t.ev with heatTick := nextPeriod t.ev.heatTick (millis 8000) } }
      t1.wakeWork .heatPush
    else t

/-- REFRESH_TIMER_EXPIRY (R52). -/
def execRefreshTimerExpiry (dt : Us) (s : State) : Host.Outcome State Fault Refusal :=
  s.event dt fun t =>
    if t.due t.det.refresh then
      let t1 : State := { t with det := { t.det with refresh := nextPeriod t.det.refresh (seconds 30) } }
      t1.wakeWork .refresh
    else t

/-- SERVICE_LIMIT_EXPIRY (R57). -/
def execServiceLimitExpiry (dt : Us) (s : State) : Host.Outcome State Fault Refusal :=
  s.event dt fun t =>
    if t.due t.det.serviceLimit then
      let t1 : State := { t with det := { t.det with serviceLimit := none } }
      t1.wakeWork .serviceLimit
    else t

/-- OBSERVATION_TIMER_EXPIRY (R59). -/
def execObservationTimerExpiry (dt : Us) (s : State) : Host.Outcome State Fault Refusal :=
  s.event dt fun t =>
    match t.det.observation with
    | some e => if e ≤ t.now then (t.startObservationAt e).wakeWork .observation else t
    | none => t

end Sys2Proof.Machine
end

