-- ==== Sys2Proof/Machine/FloodCommands.lean ====
section
/-! DEFINITION. The flood unit's timers (chapter 8). -/
namespace Sys2Proof.Machine

/-- RELAY_WAIT_END (R150): the wait ends on time; the offer is its work. -/
def execRelayWaitEnd (dt : Us) (buf : Fin 8) (s : State) : Host.Outcome State Fault Refusal :=
  s.event dt fun t =>
    match t.relayWaitOf buf with
    | some w => if w.running = true ∧ w.endsAt ≤ t.now then (t.endRelayWait buf).wakeWork (.relayOffer buf) else t
    | none => t

/-- PROFILE_REFRESH_TIMER_EXPIRY (R154). -/
def execProfileRefreshTimerExpiry (dt : Us) (s : State) : Host.Outcome State Fault Refusal :=
  s.event dt fun t =>
    if t.due t.fu.profileRefresh then
      let t1 : State := { t with fu := { t.fu with profileRefresh := nextPeriod t.fu.profileRefresh (seconds 1800) } }
      t1.profileRefreshed
    else t

end Sys2Proof.Machine
end

