-- ==== Sys2Proof/Machine/LineCommands.lean ====
section
/-! DEFINITION. The line unit's commands (chapter 11). -/
namespace Sys2Proof.Machine

/-! ## Inputs (R192) -/

/-- The input on a line. -/
def Lu.input (l : Lu) : InputLine → Input
  | .test => l.test
  | .profile => l.profileLine
  | .silence => l.silenceLine
  | .reset => l.resetLine

/-- The input on a line replaced. -/
def Lu.setInput (l : Lu) (line : InputLine) (i : Input) : Lu :=
  match line with
  | .test => { l with test := i }
  | .profile => { l with profileLine := i }
  | .silence => { l with silenceLine := i }
  | .reset => { l with resetLine := i }

/-- The input on a line replaced. -/
def State.setInput (line : InputLine) (i : Input) (s : State) : State := { s with lu := s.lu.setInput line i }

/-- Whether the line unit debounces a line: the test line on every role, the panel inputs on a PANEL station (R192), and
before the role is known (log 20). -/
def State.debounces (line : InputLine) (s : State) : Bool :=
  !s.sc.inReset && (decide (line = .test) || s.isPanel || s.sc.config.isNone)

/-- An input's level changes; a debounced one starts its 50 ms (R192). -/
def Input.edge (now : Us) (debounced : Bool) (i : Input) : Input :=
  { i with raw := !i.raw, debounce := if debounced then some (now + millis 50) else i.debounce }

/-- INPUT_EDGE (R192): an edge on a monitored line is a wake event (R165). -/
def execInputEdge (dt : Us) (line : InputLine) (s : State) : Host.Outcome State Fault Refusal :=
  s.event dt fun t =>
    let t1 := t.setInput line ((t.lu.input line).edge t.now (t.debounces line))
    if t.debounces line then t1.leaveDoze else t1

/-- Whether debounced changes start work (R192): step 3 has ended. An inert station never ends it. -/
def State.actsOnInputs (s : State) : Bool := decide (s.sc.learning = .ended) && !s.sc.inert

/-- A change of the test line's debounced level to `pressed` (R192). -/
def State.testChanged (pressed : Bool) (s : State) : State :=
  if pressed then { s with lu := { s.lu with press := s.after (millis 3000) } }
  else
    match s.lu.press with
    | some e =>
      let s1 : State := { s with lu := { s.lu with press := none } }
      if s.now < e then s1.timerWork (.shortPress s.now) else s1
    | none => s

/-- A change of a line's debounced level (R192, R193). -/
def State.inputChanged (line : InputLine) (level : Bool) (s : State) : State :=
  match line with
  | .test => s.testChanged level
  | .profile => if s.isPanel then s.timerWork (.profileChange (if level then .service else .normal)) else s
  | .silence => if s.isPanel && level then s.timerWork .silencePress else s
  | .reset => if s.isPanel && level then s.timerWork .resetPress else s

/-- DEBOUNCE_END (R192): the level that stood 50 ms becomes the debounced level. -/
def execDebounceEnd (dt : Us) (line : InputLine) (s : State) : Host.Outcome State Fault Refusal :=
  s.event dt fun t =>
    let i := t.lu.input line
    if t.due i.debounce then
      let t1 := t.setInput line { i with level := i.raw, debounce := none }
      if i.raw = i.level then t1 else if t1.actsOnInputs then t1.inputChanged line i.raw else t1
    else t

/-- LONG_PRESS (R192, R179). -/
def execLongPress (dt : Us) (s : State) : Host.Outcome State Fault Refusal :=
  s.event dt fun t =>
    if t.due t.lu.press = true ∧ t.lu.test.level = true then
      let t1 : State := { t with lu := { t.lu with press := none } }
      t1.timerWork .longPress
    else t

/-! ## LED and status line (R191, R195) -/

/-- LED_PERIOD_START (R191). -/
def execLedPeriodStart (dt : Us) (s : State) : Host.Outcome State Fault Refusal :=
  s.event dt fun t => if t.due t.lu.ledNext then t.ledPeriod else t

/-- STATE_PATTERN_END (R191). -/
def execStatePatternEnd (dt : Us) (s : State) : Host.Outcome State Fault Refusal :=
  s.event dt fun t =>
    if t.due t.lu.statePattern then { t with lu := { t.lu with statePattern := none } } else t

/-- STATUS_RECORD_SENT (R195). -/
def execStatusRecordSent (dt : Us) (s : State) : Host.Outcome State Fault Refusal :=
  s.event dt fun t => if t.due t.lu.sendEnd then t.recordSent else t

end Sys2Proof.Machine
end

