-- ==== Sys2Proof/Machine/MeasurementCommands.lean ====
section
/-! DEFINITION. The measurement commands (chapter 1). -/
namespace Sys2Proof.Machine

/-- SCAN_COMPLETION (R7): a code arriving for an abandoned scan changes no state (R13). -/
def execScanCompletion (dt : Us) (seq : BitVec 16) (d i b t v : Code) (s : State) : Host.Outcome State Fault Refusal :=
  s.event dt fun u =>
    match u.mu.scan with
    | some x => if x.seq = seq then u.scanCompleted x d i b t v else u
    | none => u

/-- SCAN_GUARD_EXPIRY (R14). -/
def execScanGuardExpiry (dt : Us) (s : State) : Host.Outcome State Fault Refusal :=
  s.event dt fun t => if t.due t.guards.scan then (t.stopGuard .scan).wakeWork (.guardExpired .scan) else t

end Sys2Proof.Machine
end

