-- ==== Sys2Proof/Machine/NeighbourCommands.lean ====
section
/-! DEFINITION. The neighbour table's timers (chapter 4). -/
namespace Sys2Proof.Machine

/-- An entry's hold timer at 0 (R70). -/
def endHold (a : Addr) (nt : List Neighbour) : List Neighbour :=
  nt.map (fun n => if n.addr = a then { n with hold := none } else n)

/-- HOLD_TIMER_EXPIRY (R70): the hold ends at the expiry, in DOZE too, and what waits for the settle end is the notice to the
TU (log 45). -/
def execHoldTimerExpiry (dt : Us) (a : Addr) (s : State) : Host.Outcome State Fault Refusal :=
  s.event dt fun t =>
    match entryOf a t.nt with
    | some n =>
      if t.due n.hold then
        let t1 : State := { t with nt := endHold a t.nt }
        t1.wakeWork .holdEnded
      else t
    | none => t

/-- An entry's supervision expiry set to none (R75). -/
def endSupervision (a : Addr) (nt : List Neighbour) : List Neighbour :=
  nt.map (fun n => if n.addr = a then { n with supervision := none } else n)

/-- SUPERVISION_EXPIRY (R75, R76): the expiry time is none from the expiry on, and what waits for the settle end in DOZE is
the loss or removal (log 45). -/
def execSupervisionExpiry (dt : Us) (a : Addr) (s : State) : Host.Outcome State Fault Refusal :=
  s.event dt fun t =>
    match entryOf a t.nt with
    | some n =>
      if n.supervision.any (fun e => decide (e ≤ t.ms)) then
        let t1 : State := { t with nt := endSupervision a t.nt }
        t1.wakeWork (.supervision a)
      else t
    | none => t

end Sys2Proof.Machine
end

