-- ==== Sys2Proof/Machine/ReceptionCommands.lean ====
section
/-! DEFINITION. The reception commands and the restart calibration (chapter 6). -/
namespace Sys2Proof.Machine

/-- CHANNEL_SAMPLE_END (R103). -/
def execChannelSampleEnd (dt : Us) (level : Int) (s : State) : Host.Outcome State Fault Refusal :=
  s.event dt fun t =>
    if t.radio.rx = RxState.sampling ∧ t.due t.radio.sampleEnd = true then t.sampleEnded level else t

/-- PREAMBLE_DETECTION (R104). -/
def execPreambleDetection (dt : Us) (s : State) : Host.Outcome State Fault Refusal :=
  s.event dt fun t => if t.radio.rx = RxState.listening then t.enterReceiving else t

/-- DELIMITER_FOUND (R104). -/
def execDelimiterFound (dt : Us) (level : Int) (s : State) : Host.Outcome State Fault Refusal :=
  s.event dt fun t => if t.radio.waitSince.isSome then t.delimiter level else t

/-- DELIMITER_WAIT_LIMIT (R104). -/
def execDelimiterWaitLimit (dt : Us) (s : State) : Host.Outcome State Fault Refusal :=
  s.event dt fun t =>
    if t.radio.waitSince.isSome ∧ t.due t.radio.waitEnd = true then (t.count .falseWake).releaseRx else t

/-- LEVEL_LOST (R104). -/
def execLevelLost (dt : Us) (s : State) : Host.Outcome State Fault Refusal :=
  s.event dt fun t => if t.radio.waitSince.isSome then (t.count .falseWake).releaseRx else t

/-- KIND_BYTE_ARRIVAL (R105, R106). -/
def execKindByteArrival (dt : Us) (b0 b1 kind : Byte) (s : State) : Host.Outcome State Fault Refusal :=
  s.event dt fun t =>
    match t.radio.reception with
    | some r => if r.latch = [] then t.kindByte r [b0, b1, kind] kind else t
    | none => t

/-- SEVENTH_HEADER_BYTE (R105, R106). -/
def execSeventhHeaderByte (dt : Us) (flags a0 a1 len : Byte) (s : State) : Host.Outcome State Fault Refusal :=
  s.event dt fun t =>
    match t.radio.reception with
    | some r => if r.latch ≠ [] ∧ r.bodyLen = none then t.headerEnd r [flags, a0, a1, len] len else t
    | none => t

/-- FRAME_END (R105, R106). -/
def execFrameEnd (dt : Us) (rest : List Byte) (s : State) : Host.Outcome State Fault Refusal :=
  s.event dt fun t =>
    match t.radio.reception with
    | some r => if r.latch ≠ [] then t.receptionEnd r rest else t
    | none => t

/-- CARRIER_LOST_BEFORE_KIND (R108). -/
def execCarrierLostBeforeKind (dt : Us) (s : State) : Host.Outcome State Fault Refusal :=
  s.event dt fun t =>
    match t.radio.reception with
    | some r => if r.latch = [] then (t.count .rxFormat).discardEnded else t
    | none => t

/-- HEADER_GUARD_EXPIRY (R107). -/
def execHeaderGuardExpiry (dt : Us) (s : State) : Host.Outcome State Fault Refusal :=
  s.event dt fun t => if t.due t.guards.header then (t.stopGuard .header).wakeWork (.guardExpired .header) else t

/-- FRAME_GUARD_EXPIRY (R107). -/
def execFrameGuardExpiry (dt : Us) (s : State) : Host.Outcome State Fault Refusal :=
  s.event dt fun t => if t.due t.guards.frame then (t.stopGuard .frame).wakeWork (.guardExpired .frame) else t

/-- The radio available again (R115, R102). -/
def State.calibrated (s : State) : State :=
  let s1 : State := { s with radio := { s.radio with owner := .none } }
  ((s1.stopGuard .calibration).takeUp).select

/-- Whether the calibration begun at `begun` is the one in progress: the radio is held off and that calibration's guard runs
(R115, R168). A restart begins another calibration, and a guard that has expired ends the one it guarded. -/
def State.calibrating (begun : Us) (s : State) : Bool :=
  decide (s.radio.owner = .heldOff) && decide (s.guards.calibration = some (begun + millis 3))

/-- CALIBRATION_COMPLETION (R115): a completion that arrives for a calibration whose guard has expired, or that a later
restart has replaced, changes no state. -/
def execCalibrationCompletion (dt : Us) (s : State) (begun : Us := 0) : Host.Outcome State Fault Refusal :=
  s.event dt fun t => if t.calibrating begun then t.calibrated else t

/-- CALIBRATION_GUARD_EXPIRY (R115). -/
def execCalibrationGuardExpiry (dt : Us) (s : State) : Host.Outcome State Fault Refusal :=
  s.event dt fun t =>
    if t.due t.guards.calibration then (t.stopGuard .calibration).wakeWork (.guardExpired .calibration) else t

end Sys2Proof.Machine
end

