-- ==== Sys2Proof/Machine/ScheduleCommands.lean ====
section
/-! DEFINITION. The schedule unit's commands (chapter 9). -/
namespace Sys2Proof.Machine

/-- ENTRY_BOUNDARY (R156): the boundaries form one grid, 500 ms apart. -/
def execEntryBoundary (dt : Us) (s : State) : Host.Outcome State Fault Refusal :=
  s.event dt fun t =>
    if t.due t.su.nextBoundary then
      let t1 : State := { t with su := { t.su with nextBoundary := nextPeriod t.su.nextBoundary (millis 500) } }
      t1.wakeWork .boundary
    else t

/-- START_UP_WINDOW_EXPIRY (R159). -/
def execStartUpWindowExpiry (dt : Us) (s : State) : Host.Outcome State Fault Refusal :=
  s.event dt fun t =>
    if t.due t.su.startWindow then { t with su := { t.su with startWindow := none } } else t

/-- ALERT_HOLD_EXPIRY (R161). -/
def execAlertHoldExpiry (dt : Us) (s : State) : Host.Outcome State Fault Refusal :=
  s.event dt fun t =>
    match t.su.hold with
    | .running e => if e ≤ t.now then { t with su := { t.su with hold := .runOut } } else t
    | .stopped => t
    | .runOut => t

/-- ALERT_COMMITMENT_EXPIRY (R162). -/
def execAlertCommitmentExpiry (dt : Us) (s : State) : Host.Outcome State Fault Refusal :=
  s.event dt fun t =>
    if t.due t.su.commitment then { t with su := { t.su with commitment := none } } else t

/-- SCHEDULED_LEAVE (R165): at the next boundary less the settle time. -/
def execScheduledLeave (dt : Us) (s : State) : Host.Outcome State Fault Refusal :=
  s.event dt fun t =>
    if t.su.nextBoundary.any (fun b => decide (b ≤ t.now + settleTime t.cfg.settleCode)) then t.leaveDoze else t

/-- SETTLE_END (R166). -/
def execSettleEnd (dt : Us) (s : State) : Host.Outcome State Fault Refusal :=
  s.event dt fun t => if t.due t.su.settleEnd then t.endSettle else t

end Sys2Proof.Machine
end

