-- ==== Sys2Proof/Machine/StartUpCommands.lean ====
section
/-! DEFINITION. The start-up commands (chapter 11). -/
namespace Sys2Proof.Machine

/-- START_UP_RESET (R185): all work abandoned and every block at its initial state. What is outside the part stands: the
input lines' levels and the configuration memory. -/
def execStartUpReset (dt : Us) (s : State) : Host.Outcome State Fault Refusal :=
  .next (State.afterReset (s.now + dt) s.draws s.pending s.lu.test.raw s.lu.profileLine.raw s.lu.silenceLine.raw
    s.lu.resetLine.raw s.sc.written)

/-- An input whose line stands at its other level after the reset is seen as an edge (R185, R192). -/
def Input.edgeAfterReset (now : Us) (i : Input) : Input :=
  if i.raw then { i with debounce := some (now + millis 50) } else i

/-- The start-up sequence begins (R185, R187, R191). -/
def State.released (s : State) : State :=
  let s1 : State := { s with
    sc := { s.sc with inReset := false }
    lu := { s.lu with
      test := s.lu.test.edgeAfterReset s.now
      profileLine := s.lu.profileLine.edgeAfterReset s.now
      silenceLine := s.lu.silenceLine.edgeAfterReset s.now
      resetLine := s.lu.resetLine.edgeAfterReset s.now } }
  (s1.beginRead 1 .startUp).ledChoose

/-- RESET_LINE_RELEASE (R185). -/
def execResetLineRelease (dt : Us) (s : State) : Host.Outcome State Fault Refusal :=
  s.event dt fun t => if t.sc.inReset then t.released else t

/-- The attempt of that serial number, while it is in progress: its guard has not expired (R187). No two attempts since the
start-up reset have one serial number, so the late end of an attempt is taken for no other's, be it of the same number in
another read (log 24). -/
def State.readInProgress (attempt : Nat) (s : State) : Option ReadAttempt :=
  if s.guards.configRead.isSome then s.sc.read.filter (fun r => decide (r.serial = attempt)) else none

/-- CONFIG_READ_ATTEMPT_END (R187): a late end of an attempt whose guard has expired changes no state. -/
def execConfigReadAttemptEnd (dt : Us) (attempt : Nat) (bytes : List Byte) (s : State) :
    Host.Outcome State Fault Refusal :=
  s.event dt fun t =>
    match t.readInProgress attempt with
    | some r => t.readEnded r bytes
    | none => t

/-- CONFIG_READ_GUARD_EXPIRY (R187). -/
def execConfigReadGuardExpiry (dt : Us) (s : State) : Host.Outcome State Fault Refusal :=
  s.event dt fun t =>
    if t.due t.guards.configRead then (t.stopGuard .configRead).wakeWork (.guardExpired .configRead) else t

/-- RESTART_COUNT_WRITE_END (R189): a late end of a write whose guard has expired changes no state. -/
def execRestartCountWriteEnd (dt : Us) (s : State) : Host.Outcome State Fault Refusal :=
  s.event dt fun t => if t.sc.write.isSome then t.writeEnded else t

/-- RESTART_COUNT_WRITE_GUARD_EXPIRY (R189). -/
def execRestartCountWriteGuardExpiry (dt : Us) (s : State) : Host.Outcome State Fault Refusal :=
  s.event dt fun t =>
    if t.due t.guards.restartWrite then (t.stopGuard .restartWrite).wakeWork (.guardExpired .restartWrite) else t

/-- LEARNING_LIMIT_EXPIRY (R190). -/
def execLearningLimitExpiry (dt : Us) (s : State) : Host.Outcome State Fault Refusal :=
  s.event dt fun t => if t.due t.sc.learnLimit then t.endStep3 else t

end Sys2Proof.Machine
end

