-- ==== Sys2Proof/Machine/SupervisionCommands.lean ====
section
/-! DEFINITION. The supervision unit's timers (chapter 10). -/
namespace Sys2Proof.Machine

/-- STALL_TIMER_EXPIRY (R170, R169). -/
def execStallTimerExpiry (dt : Us) (s : State) : Host.Outcome State Fault Refusal :=
  s.event dt fun t =>
    if t.due t.sv.stall then
      let t1 : State := { t with sv := { t.sv with stall := none } }
      t1.timerWork .stallEnded
    else t

/-- FAILED_TIMER_EXPIRY (R171, R169). -/
def execFailedTimerExpiry (dt : Us) (s : State) : Host.Outcome State Fault Refusal :=
  s.event dt fun t =>
    if t.due t.sv.failed then
      let t1 : State := { t with sv := { t.sv with failed := none } }
      t1.timerWork .failedEnded
    else t

/-- REPORT_RETRY_TIMER_EXPIRY (R176, R169). -/
def execReportRetryTimerExpiry (dt : Us) (s : State) : Host.Outcome State Fault Refusal :=
  s.event dt fun t =>
    if t.due t.faults.retry then
      let t1 : State := { t with faults := { t.faults with retry := none } }
      t1.timerWork .reportRetry
    else t

/-- HEALTH_TIMER_EXPIRY (R183). -/
def execHealthTimerExpiry (dt : Us) (s : State) : Host.Outcome State Fault Refusal :=
  s.event dt fun t =>
    if t.due t.sv.health then
      let t1 : State := { t with sv := { t.sv with health := nextPeriod t.sv.health (seconds (3600 * t.cfg.healthPeriod)) } }
      t1.wakeWork .health
    else t

end Sys2Proof.Machine
end

