-- ==== Sys2Proof/Machine/TransmissionCommands.lean ====
section
/-! DEFINITION. The transmit unit's commands (chapter 7). -/
namespace Sys2Proof.Machine

/-- BACKOFF_END (R121). -/
def execBackoffEnd (dt : Us) (s : State) : Host.Outcome State Fault Refusal :=
  s.event dt fun t =>
    if t.tu.phase = TxPhase.backoff ∧ t.due t.tu.backoff = true then
      let t1 : State := { t with tu := { t.tu with backoff := none } }
      t1.wakeWork .backoffEnd
    else t

/-- ASSESSMENT_END (R122): clear at −100 dBm or below, busy above. -/
def execAssessmentEnd (dt : Us) (level : Int) (s : State) : Host.Outcome State Fault Refusal :=
  s.event dt fun t =>
    if t.tu.phase = TxPhase.assess then
      if level ≤ -100 then t.enterPreamble else (t.stopGuard .assessment).releaseTu.busyAssessment
    else t

/-- ASSESSMENT_GUARD_EXPIRY (R122). -/
def execAssessmentGuardExpiry (dt : Us) (s : State) : Host.Outcome State Fault Refusal :=
  s.event dt fun t =>
    if t.due t.guards.assessment then (t.stopGuard .assessment).wakeWork (.guardExpired .assessment) else t

/-- PREAMBLE_END (R125, R120, R128). -/
def execPreambleEnd (dt : Us) (s : State) : Host.Outcome State Fault Refusal :=
  s.event dt fun t =>
    if t.tu.phase = TxPhase.preamble ∧ t.due t.tu.preambleEnd = true then
      if t.currentIs .routine && holdRunning t.nt then t.holdReturn
      else
        match t.tu.current with
        | some e => t.bodyStart e
        | none => t
    else t

/-- BODY_END (R131). -/
def execBodyEnd (dt : Us) (s : State) : Host.Outcome State Fault Refusal :=
  s.event dt fun t =>
    match t.tu.current with
    | some e => if t.tu.phase = TxPhase.body then t.bodyEnded e else t
    | none => t

/-- BODY_GUARD_EXPIRY (R130). -/
def execBodyGuardExpiry (dt : Us) (s : State) : Host.Outcome State Fault Refusal :=
  s.event dt fun t => if t.due t.guards.body then (t.stopGuard .body).wakeWork (.guardExpired .body) else t

/-- CHANNEL_BLOCKED_WATCH_EXPIRY (R124): the watch stands expired on its frame. -/
def execChannelBlockedWatchExpiry (dt : Us) (s : State) : Host.Outcome State Fault Refusal :=
  s.event dt fun t =>
    match t.tu.watch with
    | .running e =>
      if e ≤ t.now then
        let t1 : State := { t with tu := { t.tu with watch := .expired } }
        t1.timerWork .channelBlocked
      else t
    | .stopped => t
    | .expired => t

end Sys2Proof.Machine
end

