-- ==== Sys2Proof/Machine/Dispatch.lean ====
section
/-! DEFINITION. The meaning of each command: one arm for each constructor of Instr. -/
namespace Sys2Proof.Machine

def exec (i : Instr) (s : State) : Host.Outcome State Fault Refusal :=
  match i with
  | .startUpReset dt => Sys2Proof.Machine.execStartUpReset dt s
  | .resetLineRelease dt => Sys2Proof.Machine.execResetLineRelease dt s
  | .configReadAttemptEnd dt attempt bytes => Sys2Proof.Machine.execConfigReadAttemptEnd dt attempt bytes s
  | .configReadGuardExpiry dt => Sys2Proof.Machine.execConfigReadGuardExpiry dt s
  | .restartCountWriteEnd dt => Sys2Proof.Machine.execRestartCountWriteEnd dt s
  | .restartCountWriteGuardExpiry dt => Sys2Proof.Machine.execRestartCountWriteGuardExpiry dt s
  | .learningLimitExpiry dt => Sys2Proof.Machine.execLearningLimitExpiry dt s
  | .scanCompletion dt seq dc ic bc tc vc => Sys2Proof.Machine.execScanCompletion dt seq dc ic bc tc vc s
  | .scanGuardExpiry dt => Sys2Proof.Machine.execScanGuardExpiry dt s
  | .heatTick dt => Sys2Proof.Machine.execHeatTick dt s
  | .refreshTimerExpiry dt => Sys2Proof.Machine.execRefreshTimerExpiry dt s
  | .serviceLimitExpiry dt => Sys2Proof.Machine.execServiceLimitExpiry dt s
  | .observationTimerExpiry dt => Sys2Proof.Machine.execObservationTimerExpiry dt s
  | .holdTimerExpiry dt a => Sys2Proof.Machine.execHoldTimerExpiry dt a s
  | .supervisionExpiry dt a => Sys2Proof.Machine.execSupervisionExpiry dt a s
  | .channelSampleEnd dt level => Sys2Proof.Machine.execChannelSampleEnd dt level s
  | .preambleDetection dt => Sys2Proof.Machine.execPreambleDetection dt s
  | .delimiterFound dt level => Sys2Proof.Machine.execDelimiterFound dt level s
  | .delimiterWaitLimit dt => Sys2Proof.Machine.execDelimiterWaitLimit dt s
  | .levelLost dt => Sys2Proof.Machine.execLevelLost dt s
  | .kindByteArrival dt b0 b1 kind => Sys2Proof.Machine.execKindByteArrival dt b0 b1 kind s
  | .seventhHeaderByte dt flags a0 a1 len => Sys2Proof.Machine.execSeventhHeaderByte dt flags a0 a1 len s
  | .frameEnd dt rest => Sys2Proof.Machine.execFrameEnd dt rest s
  | .carrierLostBeforeKind dt => Sys2Proof.Machine.execCarrierLostBeforeKind dt s
  | .headerGuardExpiry dt => Sys2Proof.Machine.execHeaderGuardExpiry dt s
  | .frameGuardExpiry dt => Sys2Proof.Machine.execFrameGuardExpiry dt s
  | .calibrationCompletion dt begun => Sys2Proof.Machine.execCalibrationCompletion dt s begun
  | .calibrationGuardExpiry dt => Sys2Proof.Machine.execCalibrationGuardExpiry dt s
  | .backoffEnd dt => Sys2Proof.Machine.execBackoffEnd dt s
  | .assessmentEnd dt level => Sys2Proof.Machine.execAssessmentEnd dt level s
  | .assessmentGuardExpiry dt => Sys2Proof.Machine.execAssessmentGuardExpiry dt s
  | .preambleEnd dt => Sys2Proof.Machine.execPreambleEnd dt s
  | .bodyEnd dt => Sys2Proof.Machine.execBodyEnd dt s
  | .bodyGuardExpiry dt => Sys2Proof.Machine.execBodyGuardExpiry dt s
  | .channelBlockedWatchExpiry dt => Sys2Proof.Machine.execChannelBlockedWatchExpiry dt s
  | .relayWaitEnd dt buf => Sys2Proof.Machine.execRelayWaitEnd dt buf s
  | .profileRefreshTimerExpiry dt => Sys2Proof.Machine.execProfileRefreshTimerExpiry dt s
  | .entryBoundary dt => Sys2Proof.Machine.execEntryBoundary dt s
  | .startUpWindowExpiry dt => Sys2Proof.Machine.execStartUpWindowExpiry dt s
  | .alertHoldExpiry dt => Sys2Proof.Machine.execAlertHoldExpiry dt s
  | .alertCommitmentExpiry dt => Sys2Proof.Machine.execAlertCommitmentExpiry dt s
  | .scheduledLeave dt => Sys2Proof.Machine.execScheduledLeave dt s
  | .settleEnd dt => Sys2Proof.Machine.execSettleEnd dt s
  | .stallTimerExpiry dt => Sys2Proof.Machine.execStallTimerExpiry dt s
  | .failedTimerExpiry dt => Sys2Proof.Machine.execFailedTimerExpiry dt s
  | .reportRetryTimerExpiry dt => Sys2Proof.Machine.execReportRetryTimerExpiry dt s
  | .healthTimerExpiry dt => Sys2Proof.Machine.execHealthTimerExpiry dt s
  | .inputEdge dt line => Sys2Proof.Machine.execInputEdge dt line s
  | .debounceEnd dt line => Sys2Proof.Machine.execDebounceEnd dt line s
  | .longPress dt => Sys2Proof.Machine.execLongPress dt s
  | .ledPeriodStart dt => Sys2Proof.Machine.execLedPeriodStart dt s
  | .statePatternEnd dt => Sys2Proof.Machine.execStatePatternEnd dt s
  | .statusRecordSent dt => Sys2Proof.Machine.execStatusRecordSent dt s

end Sys2Proof.Machine
end

