-- ==== Sys2Proof/Safety.lean ====
section
/-! DEFINITION. What counts as a sound state of the part: the lines follow their conditions, every figure and list is
within the range the spec gives it, every table holds one entry per key, and every buffer of the pool has one holder. -/
namespace Sys2Proof.Machine

/-! ## Lines -/

/-- The sounder and the relays stand as their conditions say (R145, R194). -/
def State.LinesFollow (s : State) : Prop :=
  s.lu.sounder = s.sounding ∧ s.lu.fireRelay = s.fireRelayOn ∧ s.lu.faultRelay = s.faultRelayOn

/-! ## Ranges -/

/-- A temperature a valid thermistor code gives (R10, R18, R30). -/
def ThetaInRange (t : Int) : Prop := -180 ≤ t ∧ t ≤ 803

/-- The ranges of the evidence state (R18, R20, R21, R23, R24, R32). The learning sums stay within what eight sets can
bring. -/
structure Evidence.InRange (v : Evidence) : Prop where
  e : v.e ≤ 1000
  esw : v.esw ≤ 1000
  eh : v.eh ≤ 1000
  smoke : v.smoke.getD 0 ≤ 4095
  ratio : v.ratio.getD 0 ≤ 63
  ibase : v.ibase ≤ 12000
  bbase : v.bbase ≤ 16368
  learnCount : v.learnCount ≤ 8
  learning : v.learning = true → v.learnCount ≤ 7
  sumIr : v.sumIr ≤ 16368 * v.learnCount
  sumBlue : v.sumBlue ≤ 16368 * v.learnCount
  theta : ∀ t ∈ v.theta, ThetaInRange t
  candidate : ∀ t ∈ v.candidate, ThetaInRange t
  ring : ∀ t ∈ v.ring, ThetaInRange t
  ringLength : v.ring.length ≤ 8
  ror : -983 ≤ v.ror ∧ v.ror ≤ 983

/-- The counts and the recorded evidence of the detection record (R37). -/
structure Detection.InRange (d : Detection) : Prop where
  hyst : d.hyst ≤ 3
  sat : d.sat ≤ 8
  evidence : d.evidence.getD 0 ≤ 1000

/-- The ranges of a neighbour entry (R63). -/
structure Neighbour.InRange (n : Neighbour) : Prop where
  avg : -508 ≤ n.avg ∧ n.avg ≤ 0
  frames : n.frames ≤ 255
  report : ∀ r ∈ n.report, r.e ≤ 1000

/-- The link level of a frame being taken (R104). -/
def Radio.InRange (r : Radio) : Prop := ∀ x ∈ r.reception, -127 ≤ x.level ∧ x.level ≤ 0

/-- A validity run (R11). -/
def ValidityRun.InRange (v : ValidityRun) : Prop := v.invalid ≤ 3 ∧ v.valid ≤ 3

/-- The supervision unit's counts and history (R15, R170, R178). -/
def Sv.InRange (v : Sv) : Prop := v.below ≤ 3 ∧ v.above ≤ 3 ∧ v.completedScans ≤ 3 ∧ v.history.length ≤ 3

/-- The line unit's lists and count (R194, R195). -/
def Lu.InRange (l : Lu) : Prop := l.records.length ≤ 16 ∧ l.lost ≤ 255 ∧ l.remote.length ≤ 16

/-- The statistics counters (R182). -/
def CountersInRange (counters : Vector Nat 16) : Prop := ∀ k : Fin 16, counters[k.val] ≤ 65535

/-- The figures of the blocks are within the ranges the spec gives them, and their lists within their lengths; the
lists of the transmit path are in `State.PoolSound`. -/
structure State.InRange (s : State) : Prop where
  ev : s.ev.InRange
  det : s.det.InRange
  radio : s.radio.InRange
  table : s.nt.length ≤ 16
  entries : ∀ n ∈ s.nt, n.InRange
  smokeRun : s.mu.smokeRun.InRange
  heatRun : s.mu.heatRun.InRange
  sv : s.sv.InRange
  lu : s.lu.InRange
  counters : CountersInRange s.counters
  faults : s.faults.records.length ≤ 8
  fires : s.fu.fires.length ≤ 8
  position : s.su.position ≤ 4
  learnCount : s.sc.learnCount ≤ 8

/-! ## Keys -/

/-- One entry per key in every table: an address in the neighbour table (R64), a pair of code and subject in the fault
list (R172), an origin in the fire origin list (R144) and in the seen list (R140), a triple in the remote fault set
(R194). -/
structure State.TablesKeyed (s : State) : Prop where
  table : (s.nt.map (·.addr)).Nodup
  faults : (s.faults.records.map (fun r => (r.code, r.subject))).Nodup
  fires : (s.fu.fires.map (·.origin)).Nodup
  seen : (s.fu.seen.map (·.origin)).Nodup
  remote : s.lu.remote.Nodup

/-! ## The frame pool -/

/-- The buffers that a holder has: the entries of the two queues, the frame in progress, the relay wait records, and the
frame being taken. -/
def State.heldBufs (s : State) : List (Fin 8) :=
  s.tu.urgent.map (·.buf) ++ s.tu.routine.map (·.buf) ++ s.tu.current.toList.map (·.buf) ++
    s.fu.relayWaits.map (·.buf) ++ (s.radio.reception.bind (·.buf)).toList

/-- The buffer of a relay copy that waits for an urgent place (R136). -/
def Waiter.relayBuf : Waiter → Option (Fin 8)
  | .relay b => some b
  | .fire _ _ => none
  | .silence => none
  | .reset _ => none

/-- The buffer stands in a state of R109 and is of a class (R110). -/
def State.Holds (b : Fin 8) (st : BufState) (c : FrameClass) (s : State) : Prop :=
  (s.buf b).state = st ∧ (s.buf b).cls = some c

/-- The counts of an entry of a class (R114, R117, R123): two strikes at most, and eleven deferrals at most, or none kept
for an urgent entry. -/
def TxEntry.Fits (c : FrameClass) (x : TxEntry) : Prop :=
  x.strikes ≤ 2 ∧
    match c with
    | .urgent => x.deferrals = none
    | .routine => ∃ n, x.deferrals = some n ∧ n ≤ 11

/-- The receive unit's hold on the radio (R99, R104): it waits for a delimiter or takes a frame only in RECEIVING, with the
radio its own, and not both at once. -/
def Radio.ReceivesSoundly (r : Radio) : Prop :=
  (r.waitSince ≠ none ∨ r.reception ≠ none → r.rx = .receiving ∧ r.owner = .receiveUnit) ∧
    (r.waitSince ≠ none → r.reception = none)

/-- The frame pool agrees with its holders (R109, R110, R112, R117, R136, R140, R148): every buffer has one holder at most
and stands in the state of R109 and the class that its holder gives it; a buffer that no holder has is FREE and empty; the
busy flag is raised at a FREE count of 3 or less and lowered at 5 or more; the queues keep to their places; each relay copy
that waits for a place has its relay wait; a seen entry has no more pins than its origin has relay waits, so that one of
24 is always unpinned; and the seen list keeps to its 24 entries, one per origin. That the frame being taken keeps its buffer
rests on the receive unit's hold on the radio, and on its kind byte having come with the claim. -/
structure State.PoolSound (s : State) : Prop where
  onePlace : s.heldBufs.Nodup
  urgent : ∀ x ∈ s.tu.urgent, s.Holds x.buf .queued .urgent ∧ x.Fits .urgent
  routine : ∀ x ∈ s.tu.routine, s.Holds x.buf .queued .routine ∧ x.Fits .routine
  current : ∀ x ∈ s.tu.current, ∃ c, s.Holds x.buf .sending c ∧ x.Fits c
  waits : ∀ w ∈ s.fu.relayWaits, s.Holds w.buf .relayWait w.cls
  reception : ∀ r ∈ s.radio.reception, ∀ b ∈ r.buf,
    s.Holds b .receiving (classOfKind (Frame.kind (s.buf b).frame)) ∧ 3 ≤ (s.buf b).frame.length ∧ r.latch ≠ []
  radio : s.radio.ReceivesSoundly
  free : ∀ b, b ∉ s.heldBufs → s.buf b = { state := .free, cls := none, frame := [], level := none }
  busy : (s.pool.freeCount ≤ 3 → s.pool.busy = true) ∧ (5 ≤ s.pool.freeCount → s.pool.busy = false)
  places : s.placesTaken .urgent ≤ 4 ∧ s.placesTaken .routine ≤ 6
  waiters : (s.fu.waiters.filterMap Waiter.relayBuf).Nodup ∧
    ∀ b, .relay b ∈ s.fu.waiters → ∃ w ∈ s.fu.relayWaits, w.buf = b ∧ w.cls = .urgent
  pins : ∀ x ∈ s.fu.seen, x.pins ≤ s.fu.relayWaits.countP (fun w => decide (w.origin = x.origin))
  seen : s.fu.seen.length ≤ 24
  seenKeyed : (s.fu.seen.map (·.origin)).Nodup

/-! ## Predicates the statements use -/

/-- An ACTIVE record of the pair stands in the fault list (R172). -/
def State.FaultActive (c : FaultCode) (subject : Addr) (s : State) : Prop :=
  ∃ r ∈ s.faults.records, r.code = c ∧ r.subject = subject ∧ r.active = true

/-- A raise of the pair can be stored (R173, R175): it has a record, there is a free place, or a CLEARED record gives way. -/
def State.FaultStorable (c : FaultCode) (subject : Addr) (s : State) : Prop :=
  (∃ r ∈ s.faults.records, r.code = c ∧ r.subject = subject) ∨ s.faults.records.length < 8 ∨
    ∃ r ∈ s.faults.records, r.active = false

/-- An origination of class `c` can be made now (R137). -/
def State.CanOriginate (c : FrameClass) (s : State) : Prop :=
  s.pool.claimAllowed c = true ∧ s.placeFree c = true

/-- An own flood `o` was originated (R137): it took the next sequence, and stands composed in a buffer that was FREE, with an
own entry in the transmit unit. -/
def State.Originated (o : OwnFrame) (s t : State) : Prop :=
  t.fu.seqCounter = s.fu.seqCounter + 1 ∧
    ∃ b, (s.buf b).state = .free ∧ (t.buf b).cls = some o.cls ∧
      (t.buf b).frame = Frame.compose s.cfg o.kind (floodHeader s.cfg s.fu.run s.fu.seqCounter s.fu.epoch ++
        o.payload s.counters (s.mu.latched.elim 0 (fun l => l.v.toNat))) ∧
      ∃ x ∈ t.tu.current.toList ++ t.tu.urgent ++ t.tu.routine, x.buf = b ∧ x.mark = .own

/-- The frame `x` in progress was preempted (R126): it stands at the head of the routine queue with its counts, its buffer
QUEUED; its timer, request, assessment guard and carrier are stopped and the radio is released; TX-PREEMPTED is counted; and
the transmit unit stands in BACKOFF with an urgent draw. -/
def State.Preempted (x : TxEntry) (s t : State) : Prop :=
  x :: s.tu.routine <+: t.tu.routine ∧ t.buf x.buf = { s.buf x.buf with state := .queued } ∧
    t.guards = { s.guards with assessment := none } ∧
    t.radio = (if s.radio.owner = .tu then
      { s.radio with owner := .none, rx := if s.su.list = .alert then .listening else .off } else s.radio) ∧
    t.counter .txPreempted = min 65535 (s.counter .txPreempted + 1) ∧
    t.tu.phase = .backoff ∧ t.tu.waiting = false ∧ t.tu.preambleEnd = none ∧
    ∃ k, 1 ≤ k ∧ k ≤ 4 ∧ t.tu.backoff = some (t.now + 5000 * k)

/-- An urgent offer of buffer `b` was accepted (R118, R119, R124, R126): the entry stands last of the urgent ones. A routine
frame in progress before its body is preempted for the urgent head. A frame in its body and an urgent frame in progress go on,
and nothing is counted. With no frame in progress the urgent head is selected at once. The watch starts if it is stopped. -/
def State.UrgentTaken (b : Fin 8) (s t : State) : Prop :=
  let selected : Prop := (t.tu.current.toList ++ t.tu.urgent).map (·.buf) = s.tu.urgent.map (·.buf) ++ [b] ∧
    t.tu.current ≠ none
  (∀ x, s.tu.current = some x → (s.buf x.buf).cls = some .routine →
    (s.tu.phase = .backoff ∨ s.tu.phase = .assess ∨ s.tu.phase = .preamble) → s.radio.owner ≠ .heldOff →
    s.Preempted x t ∧ selected) ∧
  (∀ x, s.tu.current = some x → ((s.buf x.buf).cls = some .urgent ∨ s.tu.phase = .body) →
    t.tu.current.map (·.buf) = some x.buf ∧ t.tu.urgent.map (·.buf) = s.tu.urgent.map (·.buf) ++ [b] ∧
      t.buf x.buf = s.buf x.buf ∧ t.tu.phase = s.tu.phase ∧ t.tu.backoff = s.tu.backoff ∧ t.guards = s.guards ∧
      t.radio = s.radio ∧ t.counter .txPreempted = s.counter .txPreempted) ∧
  (s.tu.current = none → s.tu.phase = .idle → s.radio.owner ≠ .heldOff →
    selected ∧ t.tu.phase = .backoff ∧ t.guards = s.guards ∧ t.radio = s.radio ∧
      t.counter .txPreempted = s.counter .txPreempted) ∧
  t.tu.watch = (if s.tu.watch = .stopped then .running (t.now + 10000000) else s.tu.watch)

/-- No block changed but the transmit path, the lines that follow and the power state: the measurement unit, the evidence,
the detection record, the neighbour table, the start-up controller, the fire origin list, the flag and the epoch. -/
structure State.SameDetection (s t : State) : Prop where
  mu : t.mu = s.mu
  ev : t.ev = s.ev
  det : t.det = s.det
  nt : t.nt = s.nt
  sc : t.sc = s.sc
  fires : t.fu.fires = s.fu.fires
  overflow : t.fu.overflow = s.fu.overflow
  epoch : t.fu.epoch = s.fu.epoch

end Sys2Proof.Machine
end

