-- ==== Sys2Proof/Certificates/Slice0/Obligations.lean ====
section
/-! DEFINITION. The statements for the provers. In each, `s` is any state, `dt` the station time the command brings, and
`{ s with now := s.now + dt }` the state at the command's own time; `State.finish s x` is `x` with what follows every event
done, which `Obligations.WhatFollowsEveryEvent` describes. -/

open Sys2Proof Sys2Proof.Machine

/-! ## Every command -/

/-- A step takes the command at the front of the queue (95_what_each_step_holds.md). -/
def Obligations.StepTakesTheFront : Prop :=
  ∀ (c : Instr) (rest : List Instr) (s : State), s.pending = c :: rest → step s = exec c { s with pending := rest }

/-- Every command completes; station time advances by its `dt` and the queue is left as it is (log 1, log 4). -/
def Obligations.EveryCommandCompletes : Prop :=
  ∀ (c : Instr) (s : State), ∃ t, exec c s = .next t ∧ t.now = s.now + c.dt ∧ t.pending = s.pending

/-- What follows every event (0.4.2, 9.5, 11.4): the sounder and the relays stand as their conditions say; the LED is left as it
was when neither the fire origin list nor the overflow flag changed, and otherwise the pattern of highest rank is chosen, a
new pattern beginning its first period, the state pattern also where the list that kept it unseen is emptied within its 2 s
(log 51: the model's choice); nothing else but the power state changes; and a station in RUN enters DOZE exactly
when the conditions of 9.5 hold after the event. -/
def Obligations.WhatFollowsEveryEvent : Prop :=
  (∀ s0 s : State,
     let t := State.finish s0 s
     let choice : LedPattern :=
       if s.sc.inert then .tripleFlash
       else if !s.fu.fires.isEmpty then .steady
       else if s.lu.statePattern.any (fun e => decide (s.now < e)) then .statePattern (s.det.state.code + 1)
       else if s.det.state = .verify then .doubleFlash
       else if s.faults.records.any (·.active) || s.faults.storageLoss then .singleFlash
       else .slowFlash
     let period := if choice = .tripleFlash then 1000000 else if choice = .slowFlash then 30000000 else 2000000
     t = { s with
       su := { s.su with power := t.su.power }
       lu := { s.lu with
         sounder := s.fu.fires.any (fun f => !f.silenced) || s.fu.overflow
         fireRelay := s.isPanel && (!s.fu.fires.isEmpty || s.fu.overflow)
         faultRelay := s.isPanel &&
           (s.faults.records.any (·.active) || s.faults.storageLoss || !s.lu.remote.isEmpty || s.lu.remoteOverflow)
         led := t.lu.led
         ledStart := t.lu.ledStart
         ledNext := t.lu.ledNext } } ∧
     ((s.fu.fires = s0.fu.fires ∧ s.fu.overflow = s0.fu.overflow) ∨ choice = s.lu.led →
       t.lu.led = s.lu.led ∧ t.lu.ledStart = s.lu.ledStart ∧ t.lu.ledNext = s.lu.ledNext) ∧
     (¬ (s.fu.fires = s0.fu.fires ∧ s.fu.overflow = s0.fu.overflow) → choice ≠ s.lu.led →
       t.lu.led = choice ∧ t.lu.ledStart = s.now ∧ t.lu.ledNext = some (s.now + period))) ∧
  (∀ s0 s : State, s.su.power = .run →
     ((State.finish s0 s).su.power = .doze ↔
       s.su.list = .quiet ∧ s.mu.scan = none ∧ s.radio.rx = .off ∧ s.radio.owner ≠ .heldOff ∧
       (s.tu.phase = .idle ∨ s.tu.phase = .backoff ∧ s.tu.backoff ≠ none) ∧
       (∀ b, (s.buf b).state ≠ .dispatch) ∧ s.su.settleEnd = none ∧ s.sc.read = none ∧ s.sc.write = none ∧
       ∃ n, s.su.nextBoundary = some n ∧ s.now + 500 * 2 ^ s.cfg.settleCode < n))

/-! ## Start-up -/

/-- START_UP_RESET sets every register, table, buffer, timer and line of every block to its initial value. Station time, the
queue, the draws, the levels on the input lines and what was written to the memory stand (log 1, log 17, log 19), and the part
is held in reset (log 33); the model's count of read attempts is 0 (log 24). That learning is off and S and R are absent on
every role until the record is applied, and that a MULTI station takes R36's learning, S = 0 and R = 63 then
(`Obligations.ReadAttemptEnd`), is the model's reading (log 18). -/
def Obligations.StartUpReset : Prop :=
  ∀ (dt : Nat) (s : State), exec (.startUpReset dt) s = .next
    { now := s.now + dt
      draws := s.draws
      pending := s.pending
      mu := { scan := none, latched := none, seq := 0, smokeRun := ⟨0, 0, false⟩, heatRun := ⟨0, 0, false⟩ }
      ev := { ibase := 0, bbase := 0, learning := false, learnCount := 0, sumIr := 0, sumBlue := 0, e := 0, esw := 0,
              eh := 0, smoke := none, ratio := none, theta := none, ror := 0, heatStatus := none, ring := [],
              candidate := none, heatTick := none }
      det := { state := .quiet, verifyStart := none, hyst := 0, sat := 0, cause := none, evidence := none,
               refresh := none, profile := .normal, pendingProfile := none, serviceLimit := none, observation := none }
      nt := []
      radio := { owner := .none, rx := .off, sampleEnd := none, waitSince := none, waitEnd := none, reception := none }
      pool := { bufs := Vector.replicate 8 { state := .free, cls := none, frame := [], level := none }, busy := false }
      tu := { urgent := [], routine := [], current := none, phase := .idle, backoff := none, waiting := false,
              preambleEnd := none, longPreamble := false, sentAlert := false, watch := .stopped }
      fu := { seqCounter := 0, run := 0, epoch := 0, seen := [], fires := [], overflow := false, relayWaits := [],
              waiters := [], pendingProfile := none, pendingHealth := false, profileRefresh := none }
      su := { list := .none, position := 0, nextBoundary := none, startWindow := none, hold := .stopped,
              commitment := none, power := .run, settleEnd := none, held := [] }
      guards := { scan := none, header := none, frame := none, assessment := none, body := none, calibration := none,
                  configRead := none, restartWrite := none }
      faults := { records := [], storageLoss := false, retry := none }
      counters := Vector.replicate 16 0
      sv := { history := [], stall := none, failed := none, below := 0, above := 0, completedScans := 0,
              selfTest := .idle, selfTestEnded := false, health := none }
      lu := { sounder := false, fireRelay := false, faultRelay := false, led := .off, ledStart := 0, ledNext := none,
              statePattern := none, records := [], lost := 0, sendEnd := none, remote := [], remoteOverflow := false,
              test := { raw := s.lu.test.raw, level := false, debounce := none }
              profileLine := { raw := s.lu.profileLine.raw, level := false, debounce := none }
              silenceLine := { raw := s.lu.silenceLine.raw, level := false, debounce := none }
              resetLine := { raw := s.lu.resetLine.raw, level := false, debounce := none }
              press := none }
      sc := { inReset := true, config := none, bytes := none, read := none, attempts := 0, write := none, written := s.sc.written,
              inert := false, learning := .notBegun, learnCount := 0, learnLimit := none } }

/-- RESET_LINE_RELEASE begins read attempt 1 under the 100 ms guard; each of the four inputs that stands at its other level
begins its debounce, and the others stand; the LED, off until then, begins the slow flash of a station without cause for
another pattern. -/
def Obligations.ReleaseBeginsTheRead : Prop :=
  ∀ (dt : Nat) (s : State), s.sc.inReset = true →
    ∃ t, exec (.resetLineRelease dt) s = .next t ∧
      t.sc = { s.sc with
        inReset := false
        read := some { number := 1, serial := s.sc.attempts + 1, purpose := .startUp }
        attempts := s.sc.attempts + 1 } ∧
      t.guards = { s.guards with configRead := some (s.now + dt + 100000) } ∧
      t.lu.test = (if s.lu.test.raw then { s.lu.test with debounce := some (s.now + dt + 50000) } else s.lu.test) ∧
      t.lu.profileLine = (if s.lu.profileLine.raw then
        { s.lu.profileLine with debounce := some (s.now + dt + 50000) } else s.lu.profileLine) ∧
      t.lu.silenceLine = (if s.lu.silenceLine.raw then
        { s.lu.silenceLine with debounce := some (s.now + dt + 50000) } else s.lu.silenceLine) ∧
      t.lu.resetLine = (if s.lu.resetLine.raw then
        { s.lu.resetLine with debounce := some (s.now + dt + 50000) } else s.lu.resetLine) ∧
      (s.sc.inert = false → s.fu.fires = [] → s.lu.statePattern = none → s.det.state ≠ .verify →
        (∀ r ∈ s.faults.records, r.active = false) → s.faults.storageLoss = false → s.lu.led = .off →
        t.lu.led = .slowFlash ∧ t.lu.ledStart = s.now + dt ∧ t.lu.ledNext = some (s.now + dt + 30000000)) ∧
      t.SameDetection { s with sc := t.sc } ∧ t.tu = s.tu ∧ t.pool = s.pool ∧ t.radio = s.radio

/-- CONFIG_READ_ATTEMPT_END, which names its attempt by a serial number (log 24: the model's choice); the attempt is in
progress until its guard expires. An end after that, or of another attempt, of an earlier read too, changes no state but the
clock. A good start-up attempt with a usable identity applies the record, sets the run number and begins the write of byte 39
and the checksum; the evidence state becomes the one R36 gives the record's role, a reading of the model (log 18). One whose
network id, address or role is out of range makes the station inert with nothing applied. A mismatch is followed at once by
the next attempt, up to three; the third of the start-up makes the station inert. At the self-test's re-read, a good attempt
clears item 6 and the third failure raises it; the self-test ends either way, stays an alert cause for the next look, and
nothing of the record is applied. -/
def Obligations.ReadAttemptEnd : Prop :=
  (∀ (dt k : Nat) (bytes : List Byte) (s : State),
     s.guards.configRead = none ∨ (∀ r ∈ s.sc.read, r.serial ≠ k) →
     exec (.configReadAttemptEnd dt k bytes) s = .next (State.finish s { s with now := s.now + dt })) ∧
  (∀ (dt n k : Nat) (bytes : List Byte) (c : ConfigRecord) (s : State), s.guards.configRead ≠ none →
     s.sc.read = some { number := n, serial := k, purpose := .startUp } → bytes.length = 42 → Record.good bytes = true →
     Record.apply bytes = some c →
     let counted := bytes.set 39 (bytes.getD 39 0 + 1)
     exec (.configReadAttemptEnd dt k bytes) s = .next (State.finish s { s with
       now := s.now + dt
       sc := { s.sc with
         config := some c
         bytes := some bytes
         read := none
         write := some [bytes.getD 39 0 + 1, (Record.sum counted).extractLsb' 0 8, (Record.sum counted).extractLsb' 8 8] }
       ev := Evidence.ofRole c.role
       fu := { s.fu with run := bytes.getD 39 0 + 1 }
       guards := { s.guards with configRead := none, restartWrite := some (s.now + dt + 50000) } })) ∧
  (∀ (dt n k : Nat) (bytes : List Byte) (s : State), s.guards.configRead ≠ none →
     s.sc.read = some { number := n, serial := k, purpose := .startUp } →
     (Record.good bytes = true ∧ Record.apply bytes = none ∨ Record.good bytes = false ∧ 3 ≤ n) →
     ∃ t, exec (.configReadAttemptEnd dt k bytes) s = .next t ∧
       t.sc = { s.sc with
         bytes := if Record.good bytes = true then some bytes else s.sc.bytes
         read := none
         inert := true } ∧
       t.guards = { s.guards with configRead := none } ∧ t.lu.led = .tripleFlash ∧ t.mu = s.mu ∧ t.ev = s.ev ∧
       t.radio = s.radio ∧ t.tu = s.tu ∧ t.pool = s.pool ∧ t.fu = s.fu) ∧
  (∀ (dt n k : Nat) (bytes : List Byte) (p : ReadPurpose) (s : State), s.guards.configRead ≠ none →
     s.sc.read = some { number := n, serial := k, purpose := p } → Record.good bytes = false → n < 3 →
     exec (.configReadAttemptEnd dt k bytes) s = .next (State.finish s { s with
       now := s.now + dt
       sc := { s.sc with read := some { number := n + 1, serial := s.sc.attempts + 1, purpose := p },
                         attempts := s.sc.attempts + 1 }
       guards := { s.guards with configRead := some (s.now + dt + 100000) } })) ∧
  (∀ (dt n k : Nat) (bytes : List Byte) (s : State), s.guards.configRead ≠ none →
     s.sc.read = some { number := n, serial := k, purpose := .selfTest } →
     (Record.good bytes = true ∨ 3 ≤ n) → s.TablesKeyed →
     ∃ t, exec (.configReadAttemptEnd dt k bytes) s = .next t ∧
       t.sv = { s.sv with selfTest := .idle, selfTestEnded := true } ∧ t.sc = { s.sc with read := none } ∧ t.ev = s.ev ∧
       t.fu.run = s.fu.run ∧ t.guards.configRead = none ∧
       (Record.good bytes = true → ¬ t.FaultActive .selfTest ((s.cfg.address &&& 0xFF00) ||| 6)) ∧
       (Record.good bytes = false → s.FaultStorable .selfTest ((s.cfg.address &&& 0xFF00) ||| 6) →
         t.FaultActive .selfTest ((s.cfg.address &&& 0xFF00) ||| 6)))

/-- A record is applied exactly when its network id, address and role are in range, and every figure applied is within the
range the record's table and the level sets give. -/
def Obligations.RecordRanges : Prop :=
  ∀ bytes : List Byte,
    ((Record.apply bytes).isSome ↔
      (1 ≤ Record.word bytes 0 ∧ Record.word bytes 0 ≤ 0xFFFE) ∧ (1 ≤ Record.word bytes 2 ∧ Record.word bytes 2 ≤ 0xFFFE) ∧
        Record.byte bytes 5 ≤ 3) ∧
    ∀ c, Record.apply bytes = some c →
      c.networkId.toNat = Record.word bytes 0 ∧ c.address.toNat = Record.word bytes 2 ∧ c.zone = bytes.getD 4 0 ∧
      c.role.code = Record.byte bytes 5 ∧ c.channel = min 7 (Record.byte bytes 6) ∧
      1 ≤ c.hopLimit ∧ c.hopLimit ≤ 15 ∧ 30 ≤ c.observationPeriod ∧ c.observationPeriod ≤ 255 ∧
      1 ≤ c.healthPeriod ∧ c.healthPeriod ≤ 24 ∧ c.settleCode ≤ 3 ∧
      (c.serviceApplies = true ↔ Record.byte bytes 11 ≠ 0) ∧
      (∀ l ∈ [c.normal, c.service], 100 ≤ l.alarm ∧ l.alarm ≤ 1000 ∧ 50 ≤ l.watch ∧ l.watch ≤ l.alarm - 50 ∧
        l.alarm ≤ l.confirm ∧ l.confirm ≤ 4000 ∧ 10 ≤ l.verifyMax ∧ l.verifyMax ≤ 240) ∧
      10 ≤ c.verifySolo ∧ c.verifySolo ≤ 120 ∧ 64 ≤ c.gain ∧ c.gain ≤ 1023 ∧ 100 ≤ c.smokeFull ∧ c.smokeFull ≤ 4000 ∧
      c.ratioMin ≤ 63 ∧ c.rorFloor ≤ 60 ∧ c.warmLevel ≤ 400 ∧ 160 ≤ c.heatLimit ∧ c.heatLimit ≤ 600 ∧
      c.lowBattery ≤ 1023 ∧ c.restartCount = bytes.getD 39 0

/-- The expiry of the configuration read's guard, with the oscillator settled: GUARD-EXPIRED alone is counted, and the attempt
has failed. Attempts 1 and 2 are followed by the next; the third makes a starting station inert, and ends the self-test's
re-read with item 6 raised. -/
def Obligations.ReadGuardExpiry : Prop :=
  ∀ (dt n k e : Nat) (p : ReadPurpose) (s : State), s.sc.read = some { number := n, serial := k, purpose := p } →
    s.guards.configRead = some e → e ≤ s.now + dt → s.settled = true →
    ∃ t, exec (.configReadGuardExpiry dt) s = .next t ∧
      t.counter .guardExpired = min 65535 (s.counter .guardExpired + 1) ∧
      (∀ c, c ≠ .guardExpired → t.counter c = s.counter c) ∧
      (n < 3 → t.sc = { s.sc with read := some { number := n + 1, serial := s.sc.attempts + 1, purpose := p },
                                  attempts := s.sc.attempts + 1 } ∧
        t.guards = { s.guards with configRead := some (s.now + dt + 100000) } ∧ t.sv = s.sv ∧ t.faults = s.faults ∧
        t.fu = s.fu ∧ t.tu = s.tu ∧ t.pool = s.pool) ∧
      (3 ≤ n → t.guards.configRead = none ∧
        (p = .startUp → t.sc = { s.sc with read := none, inert := true } ∧ t.lu.led = .tripleFlash ∧ t.sv = s.sv ∧
          t.faults = s.faults ∧ t.fu = s.fu ∧ t.tu = s.tu ∧ t.pool = s.pool) ∧
        (p = .selfTest → t.sc = { s.sc with read := none } ∧
          t.sv = { s.sv with selfTest := .idle, selfTestEnded := true } ∧
          (s.FaultStorable .selfTest ((s.cfg.address &&& 0xFF00) ||| 6) →
            t.FaultActive .selfTest ((s.cfg.address &&& 0xFF00) ||| 6)))) ∧
      t.mu = s.mu ∧ t.ev = s.ev ∧ t.det = s.det ∧ t.nt = s.nt ∧ t.fu.fires = s.fu.fires ∧ t.fu.epoch = s.fu.epoch

/-- RESTART_COUNT_WRITE_END. On a MULTI station the end of the write starts the alert list and the learning sequence, all in one
event. On the other roles step 3 ends in the event that begins it: the observation timer runs and a self-test is begun
with its scan. On a PANEL station whose profile line stands at SERVICE the event also makes a PROFILE(SERVICE), or leaves it
pending, starts the refresh timer, and hands the profile to the own detection unit (last in the event: log 44). -/
def Obligations.RestartCountWriteEnd : Prop :=
  (∀ (dt : Nat) (w : List Byte) (c : ConfigRecord) (s : State), s.sc.write = some w → s.sc.config = some c →
     c.role = .multi → s.radio.owner = .none → s.mu.scan = none →
     exec (.restartCountWriteEnd dt) s = .next (State.finish s { s with
       now := s.now + dt
       sc := { s.sc with write := none, written := some w, learning := .learning, learnLimit := some (s.now + dt + 60000000) }
       su := { s.su with list := .alert, position := 1, nextBoundary := some (s.now + dt + 500000),
                         startWindow := some (s.now + dt + 30000000) }
       ev := { s.ev with heatTick := some (s.now + dt + 8000000) }
       sv := { s.sv with health := some (s.now + dt + c.healthPeriod * 3600000000) }
       radio := { s.radio with rx := .listening }
       mu := { s.mu with seq := s.mu.seq + 1,
                         scan := some { seq := s.mu.seq + 1, startedAt := s.now + dt, awaitedLearning := true,
                                        awaitedSelfTest := false } }
       guards := { s.guards with restartWrite := none, scan := some (s.now + dt + 5000) } })) ∧
  (∀ (dt : Nat) (w : List Byte) (c : ConfigRecord) (s : State), s.sc.write = some w → s.sc.config = some c →
     c.role ≠ .multi → s.mu.scan = none → s.sv.selfTest = .idle →
     let service := c.role = .panel ∧ s.lu.profileLine.level = true
     ∃ t, exec (.restartCountWriteEnd dt) s = .next t ∧
       t.su.list = .alert ∧ t.su.position = 1 ∧ t.su.nextBoundary = some (s.now + dt + 500000) ∧
       t.su.startWindow = (if c.role = .heat then some (s.now + dt + 30000000) else none) ∧
       t.ev.heatTick = (if c.role = .heat then some (s.now + dt + 8000000) else none) ∧
       t.sv.health = some (s.now + dt + c.healthPeriod * 3600000000) ∧
       t.sc.learning = .ended ∧ t.sc.learnLimit = none ∧ t.sc.write = none ∧ t.det.observation ≠ none ∧
       t.sv.selfTest = .scanning ∧
       t.mu.scan = some { seq := s.mu.seq + 1, startedAt := s.now + dt, awaitedLearning := false, awaitedSelfTest := true } ∧
       t.guards.scan = some (s.now + dt + 5000) ∧ t.guards.restartWrite = none ∧ t.nt = s.nt ∧ t.fu.fires = s.fu.fires ∧
       (service → t.fu.profileRefresh = some (s.now + dt + 1800000000) ∧
         ((t.fu.pendingProfile = some .service ∧ t.fu.seqCounter = s.fu.seqCounter) ∨
           (t.fu.seqCounter = s.fu.seqCounter + 1 ∧ ∃ b, (t.buf b).frame = Frame.compose c kindProfile
             (floodHeader c s.fu.run s.fu.seqCounter s.fu.epoch ++ [1]))) ∧
         (c.serviceApplies = true → s.det.state ≠ .verify →
           t.det.profile = .service ∧ t.det.serviceLimit = some (s.now + dt + 14400000000)) ∧
         (c.serviceApplies = false → t.det.profile = s.det.profile ∧ t.det.serviceLimit = s.det.serviceLimit)) ∧
       (¬ service → t.fu.profileRefresh = s.fu.profileRefresh ∧ t.fu.pendingProfile = s.fu.pendingProfile ∧
         t.fu.seqCounter = s.fu.seqCounter ∧ t.det.profile = s.det.profile ∧ t.det.serviceLimit = s.det.serviceLimit))

/-- The expiry of the restart-count write's guard counts GUARD-EXPIRED, raises CONFIG-WRITE on the own address, and step 3
follows. -/
def Obligations.WriteGuardRaisesConfigWrite : Prop :=
  ∀ (dt e : Nat) (w : List Byte) (c : ConfigRecord) (s : State), s.sc.write = some w → s.sc.config = some c →
    s.guards.restartWrite = some e → e ≤ s.now + dt → s.settled = true →
    s.FaultStorable .configWrite c.address →
    ∃ t, exec (.restartCountWriteGuardExpiry dt) s = .next t ∧
      t.counter .guardExpired = min 65535 (s.counter .guardExpired + 1) ∧ t.FaultActive .configWrite c.address ∧
      t.sc.write = none ∧ t.guards.restartWrite = none ∧ t.su.list = .alert ∧ t.su.position = 1 ∧
      t.su.nextBoundary = some (s.now + dt + 500000) ∧ t.sc.config = some c ∧
      (c.role = .multi → t.sc.learning = .learning) ∧ (c.role ≠ .multi → t.sc.learning = .ended)

/-- Step 3 ends at the learning limit, or at the eighth set with a VALID smoke part that the learning sequence awaited: no
further learning scan is asked for, the observation timer starts, and a self-test begins with its scan. At the limit the
detection unit's own learning is left as it is. A VALID set before the eighth is counted; an INVALID one leaves the
learning sequence as it was. -/
def Obligations.LearningLimitEndsStepThree : Prop :=
  (∀ (dt e : Nat) (s : State), s.sc.learnLimit = some e → e ≤ s.now + dt → s.sv.selfTest = .idle →
    ∃ t, exec (.learningLimitExpiry dt) s = .next t ∧
      t.sc = { s.sc with learning := .ended, learnLimit := none } ∧ t.sv.selfTest = .scanning ∧
      (∃ x, t.mu.scan = some x ∧ x.awaitedSelfTest = true) ∧ t.det.observation ≠ none ∧ t.ev = s.ev ∧ t.nt = s.nt ∧
      t.fu.fires = s.fu.fires ∧ t.su = { s.su with power := t.su.power }) ∧
  (∀ (dt : Nat) (x : Scan) (d i b t v : Code) (c : ConfigRecord) (s : State), s.mu.scan = some x →
    s.sc.config = some c → c.role = .multi → x.awaitedLearning = true → x.awaitedSelfTest = false →
    s.sc.learning = .learning →
    ∃ u, exec (.scanCompletion dt x.seq d i b t v) s = .next u ∧ u.nt = s.nt ∧
      (∃ set, u.mu.latched = some set ∧ set.seq = x.seq) ∧
      (512 ≤ d.toNat → u.sc = s.sc ∧ u.mu.scan = none) ∧
      (d.toNat < 512 → s.sc.learnCount < 7 → u.sc = { s.sc with learnCount := s.sc.learnCount + 1 } ∧ u.mu.scan = none) ∧
      (d.toNat < 512 → 7 ≤ s.sc.learnCount → u.sc = { s.sc with learnCount := 8, learning := .ended, learnLimit := none } ∧
        u.det.observation ≠ none ∧
        (s.sv.selfTest = .idle → u.sv.selfTest = .scanning ∧ u.guards.scan = some (s.now + dt + 5000) ∧
          u.mu.scan = some { seq := s.mu.seq + 1, startedAt := s.now + dt, awaitedLearning := false,
                             awaitedSelfTest := true })))

/-- After its record is applied a station keeps it until START_UP_RESET, no start-up read being in progress; an inert station
stays inert until START_UP_RESET. -/
def Obligations.ConfigurationAndInertKept : Prop :=
  (∀ (i : Instr) (s t : State) (c : ConfigRecord), exec i s = .next t → (∀ dt, i ≠ .startUpReset dt) →
     s.sc.config = some c → s.sc.inReset = false → (∀ r ∈ s.sc.read, r.purpose = .selfTest) →
     t.sc.config = some c ∧ t.sc.inReset = false ∧ ∀ r ∈ t.sc.read, r.purpose = .selfTest) ∧
  (∀ (i : Instr) (s t : State), exec i s = .next t → (∀ dt, i ≠ .startUpReset dt) → s.sc.inert = true → t.sc.inert = true)

/-! ## Measurement -/

/-- SCAN_COMPLETION, which names its scan (log 24). It latches one whole set of the role's channels, each part classified, and
switches the emitters and the bias off; unless the learning sequence awaited the scan, no scan is in flight after it and the
guard and the front-end are off. On a MULTI or HEAT station the evidence figures become those of this set, judged against the
baselines as they stood; the detection record becomes that of the transitions on those figures, but for the observation timer
where the learning sequence ends; and the baselines are learned or tracked by the state the evaluation was made in. A
declaration lists the station, and asks for a FIRE with the recorded cause and evidence, made or pending; an own address that
is listed already leaves list and flag, a full list included (log 40: the model's choice). On a RELAY or PANEL station
evidence and detection record stand. The set is then taken by the validity runs, the battery watch, the completed-scan count
and, where it awaited the scan, the self-test (log 7: the model's choice of their order). -/
def Obligations.ScanCompletionLatches : Prop :=
  (∀ (dt : Nat) (x : Scan) (d i b t v : Code) (c : ConfigRecord) (s : State), s.mu.scan = some x →
    s.sc.config = some c →
    let detector := c.role = .multi ∨ c.role = .heat
    ∃ u set, exec (.scanCompletion dt x.seq d i b t v) s = .next u ∧
      (x.awaitedLearning = false ∨ c.role ≠ .multi →
        u.mu.scan = none ∧ u.guards.scan = none ∧ u.mu.seq = s.mu.seq ∧ u.frontEndOn = false) ∧
      u.nt = s.nt ∧ u.irEmitter = false ∧ u.blueEmitter = false ∧ u.thermistorBias = false ∧
      u.mu.latched = some set ∧ set.seq = x.seq ∧ set.v = v ∧
      set.smoke = (if c.role = .multi then
        some { d := d, i := i, b := b, status := if 512 ≤ d.toNat then .invalid else .valid } else none) ∧
      set.heat = (if c.role = .multi ∨ c.role = .heat then
        some { t := t, status := if t.toNat < 20 ∨ 1003 < t.toNat then .invalid else .valid } else none) ∧
      (¬ detector → u.ev = s.ev ∧ u.det = s.det) ∧
      (detector →
        let judged : State := { s with
          now := s.now + dt
          mu := { s.mu with scan := none, latched := some set }
          guards := { s.guards with scan := none }
          ev := s.ev.figures c set }
        let det := (judged.transitions
          (if 20 ≤ t.toNat ∧ t.toNat ≤ 1003 then some ((t.toNat : Int) - 200) else none)).det
        u.ev = ((s.ev.figures c set).baselineStep s.det.state set.smoke).2 ∧
        u.det = { det with observation := u.det.observation } ∧
        (x.awaitedLearning = false ∨ c.role ≠ .multi → u.det = det) ∧
        (s.det.state = .fire ∨ u.det.state ≠ .fire → u.fu.fires = s.fu.fires ∧ u.fu.overflow = s.fu.overflow) ∧
        (s.det.state ≠ .fire → u.det.state = .fire → ∃ cause, u.det.cause = some cause ∧ u.det.evidence = some u.ev.e ∧
          ((∃ f ∈ s.fu.fires, f.origin = c.address) → u.fu.fires = s.fu.fires ∧ u.fu.overflow = s.fu.overflow) ∧
          ((∀ f ∈ s.fu.fires, f.origin ≠ c.address) → s.fu.fires.length < 8 → u.fu.overflow = s.fu.overflow ∧
            u.fu.fires = s.fu.fires ++ [{ origin := c.address, zone := c.zone, cause := cause.code, silenced := false }]) ∧
          ((∀ f ∈ s.fu.fires, f.origin ≠ c.address) → 8 ≤ s.fu.fires.length →
            u.fu.fires = s.fu.fires ∧ u.fu.overflow = true) ∧
          (let made := ∃ b, (u.buf b).frame = Frame.compose c kindFire
             (floodHeader c s.fu.run s.fu.seqCounter s.fu.epoch ++ cause.code :: nat16Bytes u.ev.e)
           (made ∨ ∃ ca ed, .fire ca ed ∈ u.fu.waiters) ∧
           (s.CanOriginate .urgent → (s.det.state ≠ .verify ∨ s.det.pendingProfile = none) → made))))) ∧
  (∀ (dt : Nat) (x : Scan) (d i b t v : Code) (c : ConfigRecord) (s : State), s.mu.scan = some x →
    s.sc.config = some c → s.TablesKeyed →
    ∃ u, exec (.scanCompletion dt x.seq d i b t v) s = .next u ∧
      (let badSmoke := 512 ≤ d.toNat
       let badHeat := t.toNat < 20 ∨ 1003 < t.toNat
       let low := v.toNat < c.lowBattery
       let high := c.lowBattery + 25 < v.toNat
       (c.role ≠ .multi → u.mu.smokeRun = s.mu.smokeRun) ∧
       (c.role = .multi → u.mu.smokeRun = (if badSmoke then
           { invalid := min 3 (s.mu.smokeRun.invalid + 1), valid := 0,
             raised := s.mu.smokeRun.raised || decide (s.mu.smokeRun.invalid = 2) }
         else
           { invalid := 0, valid := min 3 (s.mu.smokeRun.valid + 1),
             raised := s.mu.smokeRun.raised && !decide (s.mu.smokeRun.valid = 2) })) ∧
       (c.role = .multi → badSmoke → s.mu.smokeRun.invalid = 2 → s.mu.smokeRun.raised = false →
         u.FaultActive .chamber c.address ∨ u.faults.storageLoss = true) ∧
       (c.role = .multi → ¬ badSmoke → s.mu.smokeRun.valid = 2 → s.mu.smokeRun.raised = true →
         ¬ u.FaultActive .chamber c.address) ∧
       (c.role ≠ .multi → c.role ≠ .heat → u.mu.heatRun = s.mu.heatRun) ∧
       (c.role = .multi ∨ c.role = .heat → u.mu.heatRun = (if badHeat then
           { invalid := min 3 (s.mu.heatRun.invalid + 1), valid := 0,
             raised := s.mu.heatRun.raised || decide (s.mu.heatRun.invalid = 2) }
         else
           { invalid := 0, valid := min 3 (s.mu.heatRun.valid + 1),
             raised := s.mu.heatRun.raised && !decide (s.mu.heatRun.valid = 2) })) ∧
       (c.role = .multi ∨ c.role = .heat → badHeat → s.mu.heatRun.invalid = 2 → s.mu.heatRun.raised = false →
         u.FaultActive .heatSensor c.address ∨ u.faults.storageLoss = true) ∧
       (c.role = .multi ∨ c.role = .heat → ¬ badHeat → s.mu.heatRun.valid = 2 → s.mu.heatRun.raised = true →
         ¬ u.FaultActive .heatSensor c.address) ∧
       u.sv.below = (if low then min 3 (s.sv.below + 1) else 0) ∧
       u.sv.above = (if high then min 3 (s.sv.above + 1) else 0) ∧
       (low → s.sv.below = 2 → u.FaultActive .lowBattery c.address ∨ u.faults.storageLoss = true) ∧
       (high → s.sv.above = 2 → ¬ u.FaultActive .lowBattery c.address) ∧
       u.sv.completedScans = min 3 (s.sv.completedScans + 1) ∧
       (s.sv.completedScans = 2 → ¬ u.FaultActive .scanStall c.address)) ∧
      (x.awaitedSelfTest = false → x.awaitedLearning = false → u.sc = s.sc ∧ u.sv.selfTest = s.sv.selfTest) ∧
      (x.awaitedSelfTest = true →
        u.sv.selfTest = .reading ∧ u.sc.attempts = s.sc.attempts + 1 ∧
        u.sc.read = some { number := 1, serial := s.sc.attempts + 1, purpose := .selfTest } ∧
        (x.awaitedLearning = false → u.sc = { s.sc with read := u.sc.read, attempts := u.sc.attempts }) ∧
        u.guards.configRead = some (s.now + dt + 100000) ∧
        (let within (code base : Nat) : Prop := base / 32 ≤ code ∧ code ≤ base / 8
         let item (k : BitVec 16) (checked passes : Prop) : Prop := checked →
           (passes → ¬ u.FaultActive .selfTest ((c.address &&& 0xFF00) ||| k)) ∧
           (¬ passes → u.FaultActive .selfTest ((c.address &&& 0xFF00) ||| k) ∨ u.faults.storageLoss = true)
         item 1 (c.role = .multi) (d.toNat ≤ 100) ∧
         item 2 (c.role = .multi) (u.ev.learning = true ∨ within (i.toNat - d.toNat) u.ev.ibase) ∧
         item 3 (c.role = .multi) (u.ev.learning = true ∨ within (b.toNat - d.toNat) u.ev.bbase) ∧
         item 4 (c.role = .multi ∨ c.role = .heat) (100 ≤ t.toNat ∧ t.toNat ≤ 900) ∧
         item 5 True (c.lowBattery ≤ v.toNat))))

/-- The evidence figures: those of a VALID smoke part after learning; those of a VALID heat part; the rate of rise and the
sum; the figures held for an INVALID part; and the smoke figures 0, 63 and 0 during learning. -/
def Obligations.EvidenceFigures : Prop :=
  (∀ (c : ConfigRecord) (set : SampleSet) (p : SmokePart) (v : Evidence),
     set.smoke = some p → p.status = .valid → v.learning = false →
     let is := 16 * (p.i.toNat - p.d.toNat) - v.ibase
     let bs := 16 * (p.b.toNat - p.d.toNat) - v.bbase
     let signal := min 4095 (is * c.gain / 256)
     let es := min 1000 (signal * 1000 / c.smokeFull)
     let ratio := if is < 32 then 63 else min 63 (16 * bs / is)
     let w := if is < 32 ∨ c.ratioMin = 0 ∨ c.ratioMin ≤ ratio then 16 else max 4 (16 * ratio / c.ratioMin)
     (v.figures c set).smoke = some signal ∧ (v.figures c set).ratio = some ratio ∧ (v.figures c set).esw = es * w / 16) ∧
  (∀ (c : ConfigRecord) (set : SampleSet) (h : HeatPart) (v : Evidence), set.heat = some h → h.status = .valid →
     let theta : Int := h.t.toNat - 200
     (v.figures c set).theta = some theta ∧ (v.figures c set).candidate = some theta ∧
       (v.figures c set).heatStatus = some .valid ∧
       (v.figures c set).eh =
         min 1000 (25 * ((v.figures c set).ror - c.rorFloor).toNat + 10 * (theta - c.warmLevel).toNat)) ∧
  (∀ (c : ConfigRecord) (set : SampleSet) (v : Evidence),
     (v.figures c set).e = min 1000 ((v.figures c set).esw + (v.figures c set).eh) ∧
     (∀ (oldest newest : Int) (mid : List Int), v.ring = oldest :: (mid ++ [newest]) → mid.length = 6 →
       (v.figures c set).ror = newest - oldest) ∧
     (v.ring.length ≠ 8 → (v.figures c set).ror = 0) ∧
     ((∀ p ∈ set.smoke, p.status = .invalid) →
       (v.figures c set).smoke = v.smoke ∧ (v.figures c set).ratio = v.ratio ∧ (v.figures c set).esw = v.esw) ∧
     ((∃ h, set.heat = some h ∧ h.status = .invalid) →
       (v.figures c set).theta = v.theta ∧ (v.figures c set).candidate = v.candidate ∧ (v.figures c set).eh = 0 ∧
         (v.figures c set).heatStatus = some .invalid) ∧
     (v.learning = true → (∃ p, set.smoke = some p ∧ p.status = .valid) →
       (v.figures c set).smoke = some 0 ∧ (v.figures c set).ratio = some 63 ∧ (v.figures c set).esw = 0) ∧
     (v.figures c set).ibase = v.ibase ∧ (v.figures c set).bbase = v.bbase ∧ (v.figures c set).ring = v.ring ∧
     (v.figures c set).learning = v.learning ∧ (v.figures c set).learnCount = v.learnCount)

/-- The baselines change only by an evaluation made in QUIET or while learning; learning's eighth valid set takes the
averages; tracking moves each by at most one sixteenth; Ibase never passes 12000. A set whose smoke part is INVALID, or that
has none, leaves the baselines, the learning count and the sums as they are, and asks for nothing. -/
def Obligations.BaselineStep : Prop :=
  (∀ (made : DetState) (part : Option SmokePart) (v : Evidence), (∀ p ∈ part, p.status = .invalid) →
    v.baselineStep made part = (false, v)) ∧
  (∀ (made : DetState) (p : SmokePart) (v : Evidence), p.status = .valid → v.ibase ≤ 12000 →
    let r := v.baselineStep made (some p)
    let ic := p.i.toNat - p.d.toNat
    let bc := p.b.toNat - p.d.toNat
    r.2.ibase ≤ 12000 ∧
    (v.learning = false → made ≠ .quiet → r = (false, v)) ∧
    (v.learning = false → made = .quiet →
      r.2.ibase = (if 16 * ic < v.ibase then v.ibase - 1
        else if v.ibase < 16 * ic ∧ 16 * ic ≤ v.ibase + 256 ∧ v.ibase < 12000 then v.ibase + 1 else v.ibase) ∧
      r.2.bbase = (if 16 * bc < v.bbase then v.bbase - 1
        else if v.bbase < 16 * bc ∧ 16 * bc ≤ v.bbase + 256 then v.bbase + 1 else v.bbase) ∧
      (r.1 = true ↔ v.ibase = 12000 ∧ 12000 < 16 * ic ∧ 16 * ic ≤ 12256)) ∧
    (v.learning = true → v.learnCount < 7 →
      r = (false, { v with learnCount := v.learnCount + 1, sumIr := v.sumIr + 16 * ic, sumBlue := v.sumBlue + 16 * bc })) ∧
    (v.learning = true → v.learnCount = 7 →
      r.2.learning = false ∧ r.2.ibase = min 12000 ((v.sumIr + 16 * ic) / 8) ∧
      r.2.bbase = (v.sumBlue + 16 * bc) / 8 ∧ r.2.sumIr = 0 ∧ r.2.sumBlue = 0 ∧
      (r.1 = true ↔ 12000 < (v.sumIr + 16 * ic) / 8)))

/-- The guard's expiry abandons the scan: nothing is latched, the number is consumed, the drive outputs go off, GUARD-EXPIRED is
counted, SCAN-STALL is raised on the own address, and the completed-scan count is 0. The learning sequence is told nothing.
Where the self-test awaited the scan, every scan item of the role fails, and the re-read begins. -/
def Obligations.ScanGuardAbandons : Prop :=
  ∀ (dt e : Nat) (x : Scan) (s : State), s.mu.scan = some x → s.guards.scan = some e → e ≤ s.now + dt →
    s.settled = true →
    ∃ t, exec (.scanGuardExpiry dt) s = .next t ∧
      t.mu = { s.mu with scan := none } ∧ t.guards.scan = none ∧ t.sv.completedScans = 0 ∧
      t.irEmitter = false ∧ t.blueEmitter = false ∧ t.thermistorBias = false ∧ t.frontEndOn = false ∧
      t.counter .guardExpired = min 65535 (s.counter .guardExpired + 1) ∧
      (s.FaultStorable .scanStall s.cfg.address → t.FaultActive .scanStall s.cfg.address) ∧
      t.ev = s.ev ∧ t.det = s.det ∧ t.nt = s.nt ∧
      (x.awaitedSelfTest = false → t.sv = { s.sv with completedScans := 0 } ∧ t.sc = s.sc) ∧
      (x.awaitedSelfTest = true →
        t.sv = { s.sv with completedScans := 0, selfTest := .reading } ∧
        t.sc = { s.sc with read := some { number := 1, serial := s.sc.attempts + 1, purpose := .selfTest },
                           attempts := s.sc.attempts + 1 } ∧
        t.guards.configRead = some (s.now + dt + 100000) ∧
        ∀ k ∈ (match s.cfg.role with | .multi => [1, 2, 3, 4, 5] | .heat => [4, 5] | .relay => [5] | .panel => [5] : List Nat),
          t.FaultActive .selfTest ((s.cfg.address &&& 0xFF00) ||| BitVec.ofNat 16 k) ∨ t.faults.storageLoss = true)

/-! ## Detection -/

/-- HEAT_TICK: the next period runs from the expiry, and with the oscillator settled the candidate is pushed onto the newest end
of the ring, which keeps the newest eight. The expiry of every wake event, and a boundary, is taken at its own time. Its work
is done at once with the oscillator settled; otherwise it is held until the settle end, and a dozing station leaves DOZE with
its settle begun. The expiries of the other timers, the long press and the release of a short press have their work held in
DOZE, which they do not leave, and done at once in RUN, a settle included (log 14: the model's reading). That a period runs
from its deadline is log 6, a boundary met in DOZE log 15, what a hold's and a supervision's expiry do at once log 45. -/
def Obligations.HeatTickAndHeldWork : Prop :=
  (∀ (dt e : Nat) (s : State), s.ev.heatTick = some e → e ≤ s.now + dt → s.settled = true →
     (∀ th, s.ev.candidate = some th → s.ev.ring.length ≤ 8 →
       exec (.heatTick dt) s = .next (State.finish s { s with
         now := s.now + dt
         ev := { s.ev with heatTick := some (e + 8000000), candidate := none,
                           ring := (s.ev.ring ++ [th]).drop (s.ev.ring.length + 1 - 8) } })) ∧
     (s.ev.candidate = none → exec (.heatTick dt) s = .next (State.finish s { s with
         now := s.now + dt
         ev := { s.ev with heatTick := some (e + 8000000) } }))) ∧
  (∀ (dt e : Nat) (s : State), e ≤ s.now + dt →
     let settle := if s.su.power = .doze then some (s.now + dt + 500 * 2 ^ s.cfg.settleCode) else s.su.settleEnd
     let work (w : HeldWork) (x : State) : State :=
       if s.su.power = .run ∧ s.su.settleEnd = none then State.perform w { x with now := s.now + dt }
       else { x with
         now := s.now + dt
         su := { x.su with power := .run, settleEnd := settle, held := s.su.held ++ [w] } }
     let nt := s.nt
     (s.ev.heatTick = some e → exec (.heatTick dt) s = .next (State.finish s (work .heatPush { s with
       ev := { s.ev with heatTick := some (e + 8000000) } }))) ∧
     (s.su.nextBoundary = some e → exec (.entryBoundary dt) s = .next (State.finish s (work .boundary { s with
       su := { s.su with nextBoundary := some (e + 500000) } }))) ∧
     (s.tu.phase = .backoff → s.tu.backoff = some e → exec (.backoffEnd dt) s = .next (State.finish s
       (work .backoffEnd { s with tu := { s.tu with backoff := none } }))) ∧
     (s.det.refresh = some e → exec (.refreshTimerExpiry dt) s = .next (State.finish s (work .refresh { s with
       det := { s.det with refresh := some (e + 30000000) } }))) ∧
     (s.det.serviceLimit = some e → exec (.serviceLimitExpiry dt) s = .next (State.finish s (work .serviceLimit { s with
       det := { s.det with serviceLimit := none } }))) ∧
     (s.det.observation = some e → s.det.state ≠ .quiet → exec (.observationTimerExpiry dt) s = .next (State.finish s
       (work .observation { s with det := { s.det with observation := some (e + 4000000) } }))) ∧
     (s.det.observation = some e → s.det.state = .quiet → ∃ j, j ≤ 7 ∧
       exec (.observationTimerExpiry dt) s = .next (State.finish s (work .observation { s with
         draws := s.draws + 1
         det := { s.det with observation := some (e + (s.cfg.observationPeriod + j) * 1000000) } }))) ∧
     (s.sv.health = some e → exec (.healthTimerExpiry dt) s = .next (State.finish s (work .health { s with
       sv := { s.sv with health := some (e + s.cfg.healthPeriod * 3600000000) } }))) ∧
     (∀ b w, s.relayWaitOf b = some w → w.running = true → w.endsAt ≤ s.now + dt →
       exec (.relayWaitEnd dt b) s = .next (State.finish s (work (.relayOffer b) { s with fu := { s.fu with
         relayWaits := s.fu.relayWaits.map (fun x => if x.buf = b then { x with running := false } else x) } }))) ∧
     (∀ n ∈ nt, (nt.map (·.addr)).Nodup → n.hold = some e →
       exec (.holdTimerExpiry dt n.addr) s = .next (State.finish s (work .holdEnded { s with
         nt := nt.map (fun m => if m.addr = n.addr then { m with hold := none } else m) }))) ∧
     (∀ n ∈ nt, ∀ ms, (nt.map (·.addr)).Nodup → n.supervision = some ms → ms ≤ (s.now + dt) / 1000 →
       exec (.supervisionExpiry dt n.addr) s = .next (State.finish s (work (.supervision n.addr) { s with
         nt := nt.map (fun m => if m.addr = n.addr then { m with supervision := none } else m) }))) ∧
     (∀ g i, (g, i) ∈ [(.scan, .scanGuardExpiry dt), (.header, .headerGuardExpiry dt), (.frame, .frameGuardExpiry dt),
         (.assessment, .assessmentGuardExpiry dt), (.body, .bodyGuardExpiry dt),
         (.calibration, .calibrationGuardExpiry dt), (.configRead, .configReadGuardExpiry dt),
         (.restartWrite, .restartCountWriteGuardExpiry dt)] → s.guards.get g = some e →
       exec i s = .next (State.finish s (work (.guardExpired g) { s with guards := s.guards.put g none })))) ∧
  (∀ (dt e : Nat) (s : State), e ≤ s.now + dt →
     let work (w : HeldWork) (x : State) : State :=
       if s.su.power = .doze then { x with now := s.now + dt, su := { x.su with held := s.su.held ++ [w] } }
       else State.perform w { x with now := s.now + dt }
     (s.sv.stall = some e → exec (.stallTimerExpiry dt) s = .next (State.finish s (work .stallEnded { s with
       sv := { s.sv with stall := none } }))) ∧
     (s.sv.failed = some e → exec (.failedTimerExpiry dt) s = .next (State.finish s (work .failedEnded { s with
       sv := { s.sv with failed := none } }))) ∧
     (s.faults.retry = some e → exec (.reportRetryTimerExpiry dt) s = .next (State.finish s (work .reportRetry { s with
       faults := { s.faults with retry := none } }))) ∧
     (s.tu.watch = .running e → exec (.channelBlockedWatchExpiry dt) s = .next (State.finish s (work .channelBlocked { s with
       tu := { s.tu with watch := .expired } }))) ∧
     (s.lu.press = some e → s.lu.test.level = true → exec (.longPress dt) s = .next (State.finish s (work .longPress { s with
       lu := { s.lu with press := none } }))) ∧
     (∀ p, s.lu.test.debounce = some e → s.lu.test.raw = false → s.lu.test.level = true → s.lu.press = some p →
       s.now + dt < p → s.sc.learning = .ended → s.sc.inert = false →
       exec (.debounceEnd dt .test) s = .next (State.finish s (work (.shortPress (s.now + dt)) { s with
         lu := { s.lu with test := { raw := false, level := false, debounce := none }, press := none } }))))

/-- REFRESH_TIMER_EXPIRY: the timer restarts for 30 s; the FIRE asked for carries the recorded cause and evidence. Where it
can be made, its offer is taken as every urgent offer is: a routine frame in progress is preempted before its body, and not in
it. Where it cannot be made it is pending, one at a time. -/
def Obligations.RefreshAsksForFire : Prop :=
  ∀ (dt e ed : Nat) (c : FireCause) (s : State), s.det.refresh = some e → e ≤ s.now + dt → s.settled = true →
    s.det.cause = some c → s.det.evidence = some ed →
    ∃ t, exec (.refreshTimerExpiry dt) s = .next t ∧ t.det = { s.det with refresh := some (e + 30000000) } ∧
      t.ev = s.ev ∧ t.nt = s.nt ∧ t.fu.fires = s.fu.fires ∧
      (s.CanOriginate .urgent → t.fu.seqCounter = s.fu.seqCounter + 1 ∧ t.fu.waiters = s.fu.waiters ∧
        ∃ b, (s.buf b).state = .free ∧ (t.buf b).cls = some .urgent ∧
          (t.buf b).frame = Frame.compose s.cfg kindFire
            (floodHeader s.cfg s.fu.run s.fu.seqCounter s.fu.epoch ++ c.code :: nat16Bytes ed) ∧
          (s.PoolSound → s.UrgentTaken b t)) ∧
      (¬ s.CanOriginate .urgent → t.fu.seqCounter = s.fu.seqCounter ∧ t.pool = s.pool ∧ t.tu = s.tu ∧
        t.fu.waiters = (if s.fu.waiters.any (fun w => match w with | .fire _ _ => true | _ => false) then s.fu.waiters
          else s.fu.waiters ++ [.fire c ed]))

/-- SERVICE_LIMIT_EXPIRY: NORMAL is taken into force at once, or made pending in VERIFY. -/
def Obligations.ServiceLimit : Prop :=
  ∀ (dt e : Nat) (s : State), s.det.serviceLimit = some e → e ≤ s.now + dt → s.settled = true →
    s.det.profile = .service →
    ∃ t, exec (.serviceLimitExpiry dt) s = .next t ∧
      t.det = (if s.det.state = .verify then { s.det with serviceLimit := none, pendingProfile := some .normal }
        else { s.det with serviceLimit := none, profile := .normal }) ∧
      t.ev = s.ev ∧ t.nt = s.nt ∧ t.sc = s.sc ∧ t.fu.fires = s.fu.fires

/-- OBSERVATION_TIMER_EXPIRY: the timer restarts at its expiry with the duration for the state, and an own OBSERVATION is
then in flight unless its routine claim or queue place was refused. -/
def Obligations.ObservationTimer : Prop :=
  ∀ (dt e : Nat) (s : State), s.det.observation = some e → e ≤ s.now + dt → s.settled = true →
    ∃ t j, exec (.observationTimerExpiry dt) s = .next t ∧ j ≤ 7 ∧
      t.det = { s.det with observation := some (if s.det.state = .quiet
        then e + (s.cfg.observationPeriod + j) * 1000000 else e + 4000000) } ∧
      (s.CanOriginate .routine → t.ownInFlight kindObservation = true) ∧
      (¬ s.CanOriginate .routine → t.pool = s.pool ∧ t.tu = s.tu) ∧
      t.ev = s.ev ∧ t.nt = s.nt ∧ t.sc = s.sc ∧ t.fu = s.fu

/-- FIRE is latched: the detection state leaves it only at START_UP_RESET or in an event that adopts another epoch. -/
def Obligations.FireLatched : Prop :=
  ∀ (i : Instr) (s t : State), exec i s = .next t → (∀ dt, i ≠ .startUpReset dt) → .resetPress ∉ s.su.held →
    s.det.state = .fire → t.fu.epoch = s.fu.epoch →
    t.det.state = .fire ∧ t.det.cause = s.det.cause ∧ t.det.evidence = s.det.evidence

/-- The transitions of an evaluation: the fixed-heat path, the rules of QUIET and WATCH with their counts, FIRE latched, the
five conditions of VERIFY in order with the counts before them, and the causes of a declaration. What every change of state
brings: the counts at 0, the verify timer, the observation timer restarted for the new state, and an OBSERVATION asked for,
made or skipped; a declaration starts the refresh timer; leaving VERIFY takes the pending profile into force, with its
service limit, and makes it absent. -/
def Obligations.DetectionTransitions : Prop :=
  (∀ (theta : Option Int) (s : State),
     (s.det.state ≠ .fire → (∃ th, theta = some th ∧ (s.cfg.heatLimit : Int) ≤ th) →
       (s.transitions theta).det.state = .fire ∧ (s.transitions theta).det.cause = some .heatFixed ∧
       (s.transitions theta).det.evidence = some s.ev.e) ∧
     ((∀ th ∈ theta, th < (s.cfg.heatLimit : Int)) →
       (s.det.state = .quiet →
         (s.levels.watch ≤ s.ev.e → (s.transitions theta).det.state = .watch ∧ (s.transitions theta).det.hyst = 0 ∧
           (s.transitions theta).det.sat = 0) ∧
         (s.ev.e < s.levels.watch → s.transitions theta = s)) ∧
       (s.det.state = .watch →
         (s.levels.alarm ≤ s.ev.e → (s.transitions theta).det.state = .verify ∧
           (s.transitions theta).det.verifyStart = some (s.now / 1000) ∧ (s.transitions theta).det.hyst = 0 ∧
           (s.transitions theta).det.sat = 0) ∧
         (s.ev.e < s.levels.alarm → s.levels.watch - 50 ≤ s.ev.e →
           s.transitions theta = { s with det := { s.det with hyst := 0 } }) ∧
         (s.ev.e < s.levels.alarm → s.ev.e < s.levels.watch - 50 → s.det.hyst < 2 →
           s.transitions theta = { s with det := { s.det with hyst := s.det.hyst + 1 } }) ∧
         (s.ev.e < s.levels.alarm → s.ev.e < s.levels.watch - 50 → 2 ≤ s.det.hyst →
           (s.transitions theta).det.state = .quiet ∧ (s.transitions theta).det.hyst = 0))) ∧
     (s.det.state = .fire → s.transitions theta = s)) ∧
  (∀ (theta : Option Int) (s : State), s.det.state = .verify → (∀ th ∈ theta, th < (s.cfg.heatLimit : Int)) →
     let c := corroboration s.ms s.cfg.zone s.ev.e s.nt
     let fires := (s.levels.confirm ≤ c ∧ ∃ n ∈ s.nt, 0 < contribution s.ms s.cfg.zone n) ∨
       (s.ev.e = 1000 ∧ 7 ≤ s.det.sat) ∨
       ((∀ n ∈ s.nt, ¬ (n.status = .live ∧ n.zone = some s.cfg.zone)) ∧ s.cfg.verifySolo * 1000 ≤ s.verifyTime ∧
         s.levels.alarm ≤ s.ev.e) ∨
       (s.levels.verifyMax * 1000 ≤ s.verifyTime ∧ s.levels.alarm ≤ s.ev.e)
     let falls := s.ev.e < s.levels.alarm - 50
     (fires → (s.transitions theta).det.state = .fire ∧ (s.transitions theta).det.verifyStart = none ∧
       (s.transitions theta).det.evidence = some s.ev.e ∧
       (s.transitions theta).det.cause = some (if 0 < s.ev.esw ∧ 0 < s.ev.eh then .smokeAndHeat
         else if 0 < s.ev.esw then .smoke else if 0 < s.ev.eh then .heatRate
         else if s.cfg.role = .heat then .heatRate else .smoke)) ∧
     (¬ fires → falls → 2 ≤ s.det.hyst → (s.transitions theta).det.state = .watch ∧
       (s.transitions theta).det.verifyStart = none ∧ (s.transitions theta).det.hyst = 0 ∧
       (s.transitions theta).det.sat = 0) ∧
     (¬ fires → ¬ (falls ∧ 2 ≤ s.det.hyst) → s.transitions theta = { s with det := { s.det with
       sat := if s.ev.e = 1000 then s.det.sat + 1 else 0
       hyst := if falls then s.det.hyst + 1 else 0 } })) ∧
  (∀ (theta : Option Int) (s : State),
     let t := s.transitions theta
     let pending := s.det.state = .verify ∧ s.det.pendingProfile ≠ none
     t.det.state ≠ s.det.state →
       t.det.hyst = 0 ∧ t.det.sat = 0 ∧
       t.det.verifyStart = (if t.det.state = .verify then some (s.now / 1000) else none) ∧
       (t.det.state ≠ .quiet → t.det.observation = some (s.now + 4000000)) ∧
       (t.det.state = .quiet → ∃ j, j ≤ 7 ∧ t.det.observation = some (s.now + (s.cfg.observationPeriod + j) * 1000000)) ∧
       (t.det.state = .fire → t.det.refresh = some (s.now + 30000000)) ∧
       (t.det.state ≠ .fire → t.det.refresh = s.det.refresh ∧ t.det.cause = s.det.cause ∧
         t.det.evidence = s.det.evidence) ∧
       (∀ p, s.det.state = .verify → s.det.pendingProfile = some p → t.det.profile = p ∧ t.det.pendingProfile = none ∧
         t.det.serviceLimit = (if p = .service then some (s.now + 14400000000) else none)) ∧
       (¬ pending → t.det.profile = s.det.profile ∧ t.det.pendingProfile = s.det.pendingProfile ∧
         t.det.serviceLimit = s.det.serviceLimit) ∧
       (t.det.state ≠ .fire → s.CanOriginate .routine → t.ownInFlight kindObservation = true) ∧
       (t.det.state ≠ .fire → ¬ s.CanOriginate .routine → t.pool = s.pool ∧ t.tu = s.tu) ∧
       (t.det.state = .fire → s.PoolSound → 4 ≤ s.pool.freeCount → s.placeFree .routine = true →
         t.ownInFlight kindObservation = true))

/-- The corroboration score: the contribution of an entry by its status, zone, reported state and the report's age; own
evidence and the three largest contributions, at most 4000; and its use by condition 1 of VERIFY in the same evaluation. -/
def Obligations.CorroborationScore : Prop :=
  (∀ (ms : Ms) (zone : Byte) (n : Neighbour),
    ((n.status ≠ .live ∨ n.zone ≠ some zone ∨ n.report = none ∨ ∃ r, n.report = some r ∧ r.state = .quiet) →
      contribution ms zone n = 0) ∧
    (∀ r, n.status = .live → n.zone = some zone → n.report = some r → r.state ≠ .quiet →
      contribution ms zone n = (if ms - r.heardAt ≤ 4000 then r.e else if ms - r.heardAt ≤ 10000 then r.e / 2 else 0))) ∧
  (∀ (ms : Ms) (zone : Byte) (e : Nat) (nt : List Neighbour),
    (∀ (a b c : Neighbour) (rest : List Neighbour), List.Perm nt (a :: b :: c :: rest) →
      (∀ n ∈ rest, contribution ms zone n ≤ contribution ms zone a ∧
        contribution ms zone n ≤ contribution ms zone b ∧ contribution ms zone n ≤ contribution ms zone c) →
      corroboration ms zone e nt =
        min 4000 (e + (contribution ms zone a + contribution ms zone b + contribution ms zone c))) ∧
    (nt.length < 3 → corroboration ms zone e nt = min 4000 (e + (nt.map (contribution ms zone)).sum)) ∧
    ((∀ n ∈ nt, contribution ms zone n = 0) → e ≤ 1000 → corroboration ms zone e nt = e) ∧
    corroboration ms zone e nt ≤ 4000) ∧
  (∀ (theta : Option Int) (s : State), s.det.state = .verify → (∀ th ∈ theta, th < (s.cfg.heatLimit : Int)) →
    (∃ n ∈ s.nt, 0 < contribution (s.now / 1000) s.cfg.zone n) →
    s.levels.confirm ≤ corroboration (s.now / 1000) s.cfg.zone s.ev.e s.nt → (s.transitions theta).det.state = .fire)

/-! ## Neighbour table -/

/-- The link average: 4 × level at admission; then avg + floor((4 × level − avg) / 8), which falls by at least one at any
weaker frame, rises only when 4 × level is at least 8 above, and stays within −508..0. -/
def Obligations.LinkAverage : Prop :=
  ∀ (now : Us) (ms limit : Ms) (p : SenderPart) (n : Neighbour),
    (Neighbour.admitted now ms limit p).avg = 4 * p.level ∧
    (n.heard now ms limit p).avg = n.avg + (4 * p.level - n.avg).fdiv 8 ∧
    (4 * p.level < n.avg → (n.heard now ms limit p).avg ≤ n.avg - 1) ∧
    (n.avg < (n.heard now ms limit p).avg ↔ n.avg + 8 ≤ 4 * p.level) ∧
    (-127 ≤ p.level → p.level ≤ 0 → -508 ≤ n.avg → n.avg ≤ 0 →
      -508 ≤ (n.heard now ms limit p).avg ∧ (n.heard now ms limit p).avg ≤ 0)

/-- What a dispatched frame does to the table. Its sender's entry alone is updated, or the sender is admitted, or nothing
changes; the fields of an updated and of an admitted entry, with the reported part an OBSERVATION gives; the entry a newcomer
may displace; and what the supervision unit is then told. That this and the selection come before the frame's buffer is freed
is the model's choice (log 50). -/
def Obligations.SenderUpdate : Prop :=
  (∀ (now : Us) (ms limit : Ms) (p : SenderPart) (nt : List Neighbour), (nt.map (·.addr)).Nodup →
    let reported (m : Neighbour) (zone : Option Byte) (report : Option Report) : Prop :=
      (p.obs = none → m.zone = zone ∧ m.report = report) ∧
      ∀ code e z, p.obs = some (code, e, z) →
        (3 < code.toNat → m.zone = zone ∧ m.report = report) ∧
        (∀ st : DetState, code.toNat = st.code →
          m.zone = some z ∧ m.report = some { state := st, e := min 1000 e, heardAt := ms })
    let fresh := Neighbour.admitted now ms limit p
    (∀ n ∈ nt, n.addr = p.addr → ∃ m, (takeSender now ms limit p nt).2.Perm (m :: nt.erase n) ∧
      m.addr = p.addr ∧ m.frames = min 255 (n.frames + 1) ∧ m.lastHeard = ms ∧ m.alert = p.alert ∧
      m.hold = (if p.busy then some (now + 2000000) else none) ∧ m.supervision = some (ms + limit) ∧
      m.avg = n.avg + (4 * p.level - n.avg).fdiv 8 ∧ reported m n.zone n.report ∧
      (m.status = .live ↔ n.status ≠ .new ∨ 3 ≤ min 255 (n.frames + 1)) ∧
      ((takeSender now ms limit p nt).1 = .updated true ↔ n.status ≠ .live ∧ m.status = .live)) ∧
    (fresh.addr = p.addr ∧ fresh.frames = 1 ∧ fresh.lastHeard = ms ∧ fresh.alert = p.alert ∧ fresh.avg = 4 * p.level ∧
      fresh.hold = (if p.busy then some (now + 2000000) else none) ∧ fresh.supervision = some (ms + limit) ∧
      fresh.status = .new ∧ reported fresh none none) ∧
    ((∀ n ∈ nt, n.addr ≠ p.addr) → p.level < -95 → takeSender now ms limit p nt = (.ignored, nt)) ∧
    ((∀ n ∈ nt, n.addr ≠ p.addr) → -95 ≤ p.level → nt.length < 16 →
      takeSender now ms limit p nt = (.admitted, nt ++ [fresh])) ∧
    ((∀ n ∈ nt, n.addr ≠ p.addr) → -95 ≤ p.level → 16 ≤ nt.length → ∀ m, evictionCandidate ms p.level nt = some m →
      takeSender now ms limit p nt = (.admitted, nt.filter (fun x => decide (x.addr ≠ m.addr)) ++ [fresh])) ∧
    ((∀ n ∈ nt, n.addr ≠ p.addr) → -95 ≤ p.level → 16 ≤ nt.length → evictionCandidate ms p.level nt = none →
      takeSender now ms limit p nt = (.refused, nt))) ∧
  (∀ (ms : Ms) (level : Int) (nt : List Neighbour),
    let guarded (n : Neighbour) : Prop :=
      ∃ r, n.report = some r ∧ (r.state = .verify ∨ r.state = .fire) ∧ ms - r.heardAt < 60000
    let before (a b : Neighbour) : Prop := a.avg < b.avg ∨ a.avg = b.avg ∧
      (a.lastHeard < b.lastHeard ∨ a.lastHeard = b.lastHeard ∧ a.addr.toNat < b.addr.toNat)
    (∀ m, evictionCandidate ms level nt = some m → m ∈ nt ∧ ¬ guarded m ∧
      (m.status ≠ .live → ∀ n ∈ nt, ¬ guarded n → n.status ≠ .live → ¬ before n m) ∧
      (m.status = .live → m.avg + 24 ≤ 4 * level ∧ ∀ n ∈ nt, ¬ guarded n → n.status = .live ∧ ¬ before n m)) ∧
    (evictionCandidate ms level nt = none → ∀ n ∈ nt, ¬ guarded n → n.status = .live ∧ 4 * level < n.avg + 24)) ∧
  (∀ (p : SenderPart) (s : State),
    let r := takeSender s.now (s.now / 1000) ((4 * s.cfg.observationPeriod + 30) * 1000) p s.nt
    (s.takeNeighbour p).nt = r.2 ∧
    (r.1 = .updated true → s.TablesKeyed → ¬ (s.takeNeighbour p).FaultActive .neighbourLost p.addr) ∧
    (r.1 = .refused → (s.takeNeighbour p).counter .neighbourRefused = min 65535 (s.counter .neighbourRefused + 1)) ∧
    (r.1 ≠ .updated true → r.1 ≠ .refused → s.takeNeighbour p =
      (if s.nt.any (·.hold.isSome) && !r.2.any (·.hold.isSome) then State.select { s with nt := r.2 }
       else { s with nt := r.2 })))

/-- HOLD_TIMER_EXPIRY: the entry's hold ends, and when no other hold runs the TU is told and selects. SUPERVISION_EXPIRY: a LIVE
entry becomes LOST, its other fields kept, and NEIGHBOUR-LOST is raised on its address; a NEW entry without a running hold
is removed and nothing else changes. With the oscillator settled. -/
def Obligations.NeighbourTimers : Prop :=
  (∀ (dt e : Nat) (n : Neighbour) (s : State), (s.nt.map (·.addr)).Nodup → n ∈ s.nt → n.hold = some e →
     e ≤ s.now + dt → s.settled = true →
     let after := s.nt.map (fun m => if m.addr = n.addr then { m with hold := none } else m)
     ((∃ m ∈ after, m.hold ≠ none) → exec (.holdTimerExpiry dt n.addr) s = .next (State.finish s { s with
       now := s.now + dt, nt := after })) ∧
     ((∀ m ∈ after, m.hold = none) → exec (.holdTimerExpiry dt n.addr) s = .next (State.finish s
       (State.select { s with now := s.now + dt, nt := after })))) ∧
  (∀ (dt e : Nat) (n : Neighbour) (s : State), (s.nt.map (·.addr)).Nodup → n ∈ s.nt → n.supervision = some e →
     e ≤ (s.now + dt) / 1000 → s.settled = true →
     (n.status = .live → s.FaultStorable .neighbourLost n.addr →
       ∃ t, exec (.supervisionExpiry dt n.addr) s = .next t ∧ t.FaultActive .neighbourLost n.addr ∧
         t.nt = s.nt.map (fun m => if m.addr = n.addr then { m with supervision := none, status := .lost } else m) ∧
         t.ev = s.ev ∧ t.det = s.det ∧ t.fu.fires = s.fu.fires) ∧
     (n.status = .new → n.hold = none → exec (.supervisionExpiry dt n.addr) s = .next (State.finish s { s with
       now := s.now + dt
       nt := s.nt.filter (fun m => decide (m.addr ≠ n.addr)) })))

/-! ## Reception -/

/-- CHANNEL_SAMPLE_END: above −100 dBm the receive unit keeps the radio and waits for a delimiter, and a held request is
answered busy; otherwise the radio is released, and a held request is granted. PREAMBLE_DETECTION takes the radio and
begins the 540 ms wait. DELIMITER_FOUND ends the wait, keeps the clamped level and starts the 2 ms and 12 ms guards. -/
def Obligations.FindingAFrame : Prop :=
  (∀ (dt e : Nat) (level : Int) (s : State), s.radio.rx = .sampling → s.radio.sampleEnd = some e → e ≤ s.now + dt →
     let receiving : State := { s with
       now := s.now + dt
       radio := { owner := .receiveUnit, rx := .receiving, sampleEnd := none, waitSince := some ((s.now + dt) / 1000),
                  waitEnd := some (s.now + dt + 540000), reception := none } }
     let released : State := { s with
       now := s.now + dt
       radio := { owner := .none, rx := if s.su.list = .alert then .listening else .off, sampleEnd := none,
                  waitSince := none, waitEnd := none, reception := none } }
     (-100 < level → exec (.channelSampleEnd dt level) s =
       .next (State.finish s (if s.tu.waiting then receiving.busyAssessment else receiving))) ∧
     (level ≤ -100 → s.tu.waiting = false → exec (.channelSampleEnd dt level) s = .next (State.finish s released)) ∧
     (level ≤ -100 → s.tu.waiting = true → exec (.channelSampleEnd dt level) s = .next (State.finish s { released with
       radio := { released.radio with owner := .tu, rx := .off }
       tu := { s.tu with phase := .assess, waiting := false }
       guards := { s.guards with assessment := some (s.now + dt + 2000) } }))) ∧
  (∀ (dt : Nat) (level : Int) (s : State),
     (s.radio.rx = .listening → exec (.preambleDetection dt) s = .next (State.finish s { s with
       now := s.now + dt
       radio := { owner := .receiveUnit, rx := .receiving, sampleEnd := none, waitSince := some ((s.now + dt) / 1000),
                  waitEnd := some (s.now + dt + 540000), reception := none } })) ∧
     (s.radio.waitSince ≠ none → exec (.delimiterFound dt level) s = .next (State.finish s { s with
       now := s.now + dt
       radio := { s.radio with
         waitSince := none
         waitEnd := none
         reception := some { level := if level < -127 then -127 else if 0 < level then 0 else level, latch := [],
                             buf := none, refused := false, bodyLen := none } }
       guards := { s.guards with header := some (s.now + dt + 2000), frame := some (s.now + dt + 12000) } })))

/-- DELIMITER_WAIT_LIMIT and LEVEL_LOST count FALSE-WAKE and release the radio; CARRIER_LOST_BEFORE_KIND counts RX-FORMAT and
releases it. -/
def Obligations.ReceptionLost : Prop :=
  (∀ (dt e : Nat) (s : State), s.radio.waitSince ≠ none → s.radio.waitEnd = some e →
     let after := State.finish s { s with
       now := s.now + dt
       counters := s.counters.set 14 (min 65535 (s.counters[14] + 1))
       radio := { owner := .none, rx := if s.su.list = .alert then .listening else .off, sampleEnd := none,
                  waitSince := none, waitEnd := none, reception := none } }
     exec (.levelLost dt) s = .next after ∧
     (e ≤ s.now + dt → exec (.delimiterWaitLimit dt) s = .next after)) ∧
  (∀ (dt : Nat) (r : Reception) (s : State), s.radio.reception = some r → r.latch = [] →
     exec (.carrierLostBeforeKind dt) s = .next (State.finish s { s with
       now := s.now + dt
       counters := s.counters.set 2 (min 65535 (s.counters[2] + 1))
       radio := { owner := .none, rx := if s.su.list = .alert then .listening else .off, sampleEnd := none,
                  waitSince := none, waitEnd := none, reception := none }
       guards := { s.guards with header := none, frame := none } }))

/-- KIND_BYTE_ARRIVAL: an allowed claim puts the three bytes in a FREE buffer, with the kind's class and the frame's level, in
RECEIVING (in a sound pool also where the claim raises the busy flag, as one that leaves 3 FREE buffers or fewer does, and an
OBSERVATION is asked for); a refused one counts
RX-NOBUF and touches no buffer. SEVENTH_HEADER_BYTE: the header guard stops; a length of 48 or less goes on, its bytes in the
claimed buffer or, for a refused claim, in the latch; above 48 the frame ends at once, the radio is released, and a claimed
frame counts RX-FORMAT. -/
def Obligations.HeaderBytes : Prop :=
  (∀ (dt : Nat) (b0 b1 kind : Byte) (r : Reception) (s : State), s.radio.reception = some r → r.latch = [] →
     let urgent := kind = 2 ∨ kind = 3 ∨ kind = 4
     let free := s.pool.freeCount
     ((urgent ∧ 1 ≤ free) ∨ (¬ urgent ∧ 3 ≤ free) →
       ∃ t b, exec (.kindByteArrival dt b0 b1 kind) s = .next t ∧ (s.buf b).state = .free ∧
         (t.buf b).cls = some (if urgent then .urgent else .routine) ∧ (t.buf b).frame = [b0, b1, kind] ∧
         (t.buf b).level = some r.level ∧ (s.PoolSound ∨ s.pool.busy = true ∨ 5 ≤ free → (t.buf b).state = .receiving) ∧
         (s.PoolSound → t.pool.busy = (s.pool.busy || decide (free ≤ 4)) ∧
           (s.pool.busy = false → free ≤ 4 → s.placeFree .routine = true → t.ownInFlight kindObservation = true)) ∧
         t.radio = { s.radio with reception := some { r with latch := [b0, b1, kind], buf := some b } } ∧
         t.nt = s.nt ∧ t.counters = s.counters ∧ t.fu = s.fu) ∧
     (¬ ((urgent ∧ 1 ≤ free) ∨ (¬ urgent ∧ 3 ≤ free)) →
       exec (.kindByteArrival dt b0 b1 kind) s = .next (State.finish s { s with
         now := s.now + dt
         radio := { s.radio with reception := some { r with latch := [b0, b1, kind], refused := true } }
         counters := s.counters.set 3 (min 65535 (s.counters[3] + 1)) }))) ∧
  (∀ (dt : Nat) (flags a0 a1 len : Byte) (r : Reception) (s : State), s.radio.reception = some r → r.latch ≠ [] →
     r.bodyLen = none →
     (∀ b, r.buf = some b → len.toNat ≤ 48 → exec (.seventhHeaderByte dt flags a0 a1 len) s = .next (State.finish s
       (State.setBuf b { s.buf b with frame := (s.buf b).frame ++ [flags, a0, a1, len] } { s with
         now := s.now + dt
         radio := { s.radio with reception := some { r with bodyLen := some len } }
         guards := { s.guards with header := none } }))) ∧
     (r.buf = none → len.toNat ≤ 48 → exec (.seventhHeaderByte dt flags a0 a1 len) s = .next (State.finish s { s with
         now := s.now + dt
         radio := { s.radio with reception := some { r with latch := r.latch ++ [flags, a0, a1, len], bodyLen := some len } }
         guards := { s.guards with header := none } })) ∧
     (48 < len.toNat → ∃ t, exec (.seventhHeaderByte dt flags a0 a1 len) s = .next t ∧ t.radio.reception = none ∧
       t.guards.header = none ∧ t.guards.frame = none ∧ t.nt = s.nt ∧ t.fu.fires = s.fu.fires ∧
       (r.buf = none → t.counters = s.counters ∧ t.pool = s.pool) ∧
       (r.buf ≠ none → s.fu.pendingHealth = false →
         t.counter .rxFormat = min 65535 (s.counter .rxFormat + 1))))

/-- FRAME_END: the guards stop and the radio is released before the frame is judged, and the neighbour table takes its part
before the flood unit: an order R111 leaves open (log 8: the model's choice). A discarded frame counts nothing; a claimed
frame that fails validation counts the failing check's counter and frees its buffer, with the waiters served after the count
(log 47: the model's choice); a valid frame is dispatched from its buffer. A refused frame is seen by no block behind the
pool: the neighbour table, the detection record, the fire origin list, the fault list and the remote fault set stand. A
dispatched frame counts RX-GOOD and gives its sender's part to the table; an OBSERVATION's buffer is then freed, a flood goes
to the flood unit. R111 puts the table's taking before the freeing; that the look and the selection it brings come before it
too is the model's choice (log 50). An accepted flood that brings an epoch is judged by it: a newer one performs the RESET actions, an older
one is stale and goes no further. -/
def Obligations.FrameEnd : Prop :=
  (∀ (dt : Nat) (rest : List Byte) (r : Reception) (s : State), s.radio.reception = some r → r.latch ≠ [] →
     let released : State := { s with
       now := s.now + dt
       radio := { owner := .none, rx := if s.su.list = .alert then .listening else .off, sampleEnd := none,
                  waitSince := none, waitEnd := none, reception := none }
       guards := { s.guards with header := none, frame := none } }
     (r.buf = none → exec (.frameEnd dt rest) s = .next (State.finish s released)) ∧
     (∀ b len, r.buf = some b → r.bodyLen = some len →
       let f := (s.buf b).frame ++ rest.take (len.toNat + 2)
       let taken := (rest.take (len.toNat + 2)).length
       let held := released.setBuf b { s.buf b with frame := f }
       (∀ k, validate s.cfg taken f = some k →
         exec (.frameEnd dt rest) s = .next (State.finish s ((held.count k).freeAll [b]))) ∧
       (validate s.cfg taken f = none →
         exec (.frameEnd dt rest) s = .next (State.finish s (held.dispatch b r.level)))) ∧
     (∀ b, r.buf = some b → r.bodyLen = none →
       exec (.frameEnd dt rest) s = .next (State.finish s
         (((released.setBuf b { s.buf b with frame := (s.buf b).frame ++ rest.take 3 }).count .rxFormat).freeAll [b])))) ∧
  (∀ (dt : Nat) (rest : List Byte) (r : Reception) (len : Byte) (b : Fin 8) (s : State),
     s.radio.reception = some r → r.latch ≠ [] → r.buf = some b → r.bodyLen = some len →
     validate s.cfg (rest.take (len.toNat + 2)).length ((s.buf b).frame ++ rest.take (len.toNat + 2)) ≠ none →
     ∃ t, exec (.frameEnd dt rest) s = .next t ∧ t.SameDetection s ∧ t.fu.run = s.fu.run ∧ t.su.list = s.su.list ∧
       t.faults = s.faults ∧ t.sv = s.sv ∧ t.lu.remote = s.lu.remote) ∧
  (∀ (b : Fin 8) (level : Int) (s : State),
     let f := (s.buf b).frame
     let good : State := State.setBuf b { s.buf b with state := .dispatch } { s with
       counters := s.counters.set 0 (min 65535 (s.counters[0] + 1)) }
     let sender : SenderPart :=
       { addr := Frame.sender f, busy := Frame.busyFlag f, alert := Frame.alertFlag f, level := level
         obs := if Frame.kind f = 1 then
           some (Frame.body f 0, (le16 (Frame.body f 1) (Frame.body f 2)).toNat, Frame.body f 5) else none }
     (Frame.kind f = 1 → s.dispatch b level = (good.takeNeighbour sender).freeAll [b]) ∧
     (Frame.kind f ≠ 1 → s.dispatch b level = (good.takeNeighbour sender).floodDispatch b)) ∧
  (∀ (b : Fin 8) (s : State),
     let f := (s.buf b).frame
     let judged := Frame.kind f = 2 ∨ Frame.kind f = 3 ∨ Frame.kind f = 4
     let ahead := (Frame.epoch f - s.fu.epoch).toNat
     (judged → 1 ≤ ahead → ahead ≤ 127 → s.acceptFlood b =
       ((s.resetActions (Frame.epoch f) (Frame.origin f) (Frame.originZone f)).kindAction f).relay b) ∧
     (judged → 128 ≤ ahead → s.acceptFlood b = State.freeAll [b] { s with
       counters := s.counters.set 5 (min 65535 (s.counters[5] + 1)) }) ∧
     (¬ judged ∨ ahead = 0 → s.acceptFlood b = (s.kindAction f).relay b))

/-- What validation answers, check by check in their order: none for a frame that passes all eight, and otherwise the counter
of the first that fails. -/
def Obligations.ValidFrame : Prop :=
  ∀ (c : ConfigRecord) (taken : Nat) (f : List Byte),
    let k := (Frame.kind f).toNat
    let len := Frame.length f
    let role := (Frame.originRole f).toNat
    let parts := Frame.body f 6
    let items := (Frame.body f 8).toNat
    let whole := 7 ≤ f.length ∧ len ≤ 48 ∧ taken = len + 2
    let crcOk := crc (Frame.covered f) = Frame.crcField f
    let network := Frame.networkId f = c.networkId
    let sender := Frame.sender f ≠ 0 ∧ Frame.sender f ≠ 0xFFFF ∧ Frame.sender f ≠ c.address
    let kind := 1 ≤ k ∧ k ≤ 7
    let length := k = 1 ∧ len = 7 + (if parts.getLsbD 0 then 3 else 0) + (if parts.getLsbD 1 then 4 else 0) ∨
      k = 2 ∧ len = 11 ∨ k = 3 ∧ len = 8 ∨ k = 4 ∧ len = 8 ∨ k = 5 ∧ len = 9 ∨
      k = 6 ∧ (len = 13 ∨ len = 17 ∨ len = 21 ∨ len = 25) ∨ k = 7 ∧ len = 42
    let flood := k = 1 ∨ (Frame.origin f ≠ 0 ∧ Frame.origin f ≠ 0xFFFF ∧ 1 ≤ Frame.hopLimit f ∧
      Frame.hops f ≤ Frame.hopLimit f ∧ role ≤ 3 ∧ (k = 5 → (Frame.body f 8).toNat ≤ 1) ∧
      (k = 6 → 1 ≤ items ∧ items ≤ 4 ∧ len = 9 + 4 * items ∧ ∀ i < items, (Frame.body f (12 + 4 * i)).toNat ≤ 1))
    let authority := (k = 2 → role ≤ 1) ∧ (k = 3 ∨ k = 4 ∨ k = 5 → role = 3)
    (¬ whole → validate c taken f = some .rxFormat) ∧
    (whole → ¬ crcOk → validate c taken f = some .rxCrc) ∧
    (whole → crcOk → ¬ (network ∧ sender ∧ kind ∧ length ∧ flood) → validate c taken f = some .rxFormat) ∧
    (whole → crcOk → network → sender → kind → length → flood → ¬ authority → validate c taken f = some .rxRefused) ∧
    (whole → crcOk → network → sender → kind → length → flood → authority → validate c taken f = none)

/-- Every flood a station composes, settled at its body start, is valid at a station of the same network with another
address, and is read there as it was composed. -/
def Obligations.OwnFloodIsValidElsewhere : Prop :=
  ∀ (c c' : ConfigRecord) (o : OwnFrame) (run seq epoch : BitVec 8) (counters : Vector Nat 16) (supply : Nat)
    (busy alert : Bool), o ≠ .observation → c'.networkId = c.networkId → Addr.valid c.address = true →
    c'.address ≠ c.address → 1 ≤ c.hopLimit → c.hopLimit ≤ 15 →
    (∀ cause e, o = .fire cause e → c.role = .multi ∨ c.role = .heat) →
    (o = .silence ∨ o = .reset ∨ (∃ p, o = .profile p) → c.role = .panel) →
    (∀ items, o = .fault items → 1 ≤ items.length ∧ items.length ≤ 4) →
    let body := floodHeader c run seq epoch ++ o.payload counters supply
    let f := Frame.withCrc (settleHeader (headerFlags busy alert c.role) c.address (Frame.compose c o.kind body))
    validate c' (body.length + 2) f = none ∧ f.length = 9 + body.length ∧ Frame.kind f = o.kind ∧
      Frame.sender f = c.address ∧ Frame.busyFlag f = busy ∧ Frame.alertFlag f = alert ∧ Frame.origin f = c.address ∧
      Frame.run f = run ∧ Frame.seq f = seq ∧ Frame.hops f = 0 ∧ Frame.hopLimit f = c.hopLimit ∧
      Frame.epoch f = epoch ∧ Frame.originZone f = c.zone ∧
      (∀ cause e, o = .fire cause e → e ≤ 1000 →
        Frame.body f 8 = cause.code ∧ (le16 (Frame.body f 9) (Frame.body f 10)).toNat = e) ∧
      (∀ p, o = .profile p → Frame.body f 8 = p.code) ∧
      (∀ items, o = .fault items → Frame.faultItems f =
        items.map (fun i => (i.1.code, i.2.1, if i.2.2 then 1 else 0)))

/-! ## Radio restart -/

/-- The expiry of a radio guard, with the oscillator settled: GUARD-EXPIRED is counted; the receive unit goes OFF, the TU
IDLE, the radio is held off under a new calibration guard, the restart is recorded with both timers, and RADIO-STALL is
raised; the table, the flood lists and the detection record stand. RADIO-FAILED is raised at the third restart within 600 s
and only then. The body guard alone charges the frame in progress a strike: the third frees it, and TX-ABANDONED is counted;
otherwise the frame stands at the head of its queue. The buffer of a frame being received is freed too. A freed buffer is
FREE and empty, unless a frame originated in the event has taken it; the order of the takers is the model's (log 38), and so
is the return of a FIRE or SILENCE whose purge waited for the body end that the restart has cut off (log 49). -/
def Obligations.RadioGuardRestarts : Prop :=
  ∀ (dt e : Nat) (g : GuardName) (i : Instr) (s : State),
    (g, i) ∈ [(.header, .headerGuardExpiry dt), (.frame, .frameGuardExpiry dt), (.assessment, .assessmentGuardExpiry dt),
      (.body, .bodyGuardExpiry dt), (.calibration, .calibrationGuardExpiry dt)] →
    s.guards.get g = some e → e ≤ s.now + dt → s.settled = true →
    let ms := (s.now + dt) / 1000
    let own := s.cfg.address
    let history := (if s.sv.history.length < 3 then s.sv.history else s.sv.history.drop 1) ++ [ms]
    let fails := ∃ oldest rest, history = oldest :: rest ∧ rest.length = 2 ∧ ms - oldest < 600000
    let lost (x : TxEntry) : Prop := s.tu.current = some x ∧ g = .body ∧ 2 ≤ x.strikes
    ∃ t, exec i s = .next t ∧
      t.radio = { owner := .heldOff, rx := .off, sampleEnd := none, waitSince := none, waitEnd := none, reception := none } ∧
      t.guards = { s.guards with header := none, frame := none, assessment := none, body := none,
                                 calibration := some (s.now + dt + 3000) } ∧
      t.tu.phase = .idle ∧ t.tu.current = none ∧ t.tu.backoff = none ∧
      t.sv.history = history ∧
      t.sv.stall = some (s.now + dt + 60000000) ∧ t.sv.failed = some (s.now + dt + 600000000) ∧
      (s.fu.pendingHealth = false → t.counter .guardExpired = min 65535 (s.counter .guardExpired + 1) ∧
        ((∃ x, lost x) → t.counter .txAbandoned = min 65535 (s.counter .txAbandoned + 1)) ∧
        ((∀ x, ¬ lost x) → t.counter .txAbandoned = s.counter .txAbandoned)) ∧
      (s.TablesKeyed →
        (s.FaultStorable .radioStall own → t.FaultActive .radioStall own) ∧
        (fails → t.FaultActive .radioFailed own ∨ t.faults.storageLoss = true) ∧
        (fails → s.faults.records.length < 7 → t.FaultActive .radioFailed own) ∧
        (¬ fails → (t.FaultActive .radioFailed own ↔ s.FaultActive .radioFailed own))) ∧
      t.SameDetection s ∧
      (s.PoolSound → s.TablesKeyed →
        (∀ x, s.tu.current = some x → ¬ lost x →
          let back : TxEntry := { x with strikes := if g = .body then x.strikes + 1 else x.strikes }
          t.buf x.buf = { s.buf x.buf with state := .queued } ∧
          ((s.buf x.buf).cls = some .urgent → t.tu.watch = .running (s.now + dt + 10000000) ∧
            ∃ rest, t.tu.urgent = { back with headTime := some ms } :: rest ∧
              s.tu.urgent.map (·.buf) <+: rest.map (·.buf)) ∧
          ((s.buf x.buf).cls = some .routine →
            ∃ rest, t.tu.routine = back :: rest ∧ s.tu.routine.map (·.buf) <+: rest.map (·.buf))) ∧
        (s.tu.current = none ∨ (∃ x, lost x) →
          s.tu.urgent.map (·.buf) <+: t.tu.urgent.map (·.buf) ∧ s.tu.routine.map (·.buf) <+: t.tu.routine.map (·.buf)) ∧
        (∀ b, (∃ r, s.radio.reception = some r ∧ r.buf = some b) ∨ (∃ x, lost x ∧ x.buf = b) →
          let empty : Buffer := { state := .free, cls := none, frame := [], level := none }
          (t.buf b = empty ∨ (t.buf b).state = .queued ∧ ∃ y ∈ t.tu.urgent ++ t.tu.routine, y.buf = b ∧ y.mark = .own) ∧
          (s.fu.waiters = [] → s.fu.pendingProfile = none → s.fu.pendingHealth = false →
            s.FaultActive .radioStall own → ¬ fails → (s.pool.busy = true ∨ 3 ≤ s.pool.freeCount) →
            (∀ x, lost x → ¬ (x.mark = .own ∧ Frame.kind (s.buf x.buf).frame = 6)) → t.buf b = empty)))

/-- The frame in progress at a restart: its place at the head of its queue is taken again with its deferral count; a body
guard charges a strike, and the third strike frees it and counts TX-ABANDONED. -/
def Obligations.RestartFrame : Prop :=
  ∀ (strike : Bool) (e : TxEntry) (s : State), s.tu.current = some e →
    (strike = true → 2 ≤ e.strikes →
      (s.restartFrame strike).2 = [e.buf] ∧ (s.restartFrame strike).1.tu.current = none ∧
      (s.restartFrame strike).1.tu.urgent = s.tu.urgent ∧ (s.restartFrame strike).1.tu.routine = s.tu.routine ∧
      (s.restartFrame strike).1.counter .txAbandoned = min 65535 (s.counter .txAbandoned + 1)) ∧
    (strike = false ∨ e.strikes < 2 →
      let back : TxEntry := { e with strikes := if strike then e.strikes + 1 else e.strikes }
      (s.restartFrame strike).2 = [] ∧ (s.restartFrame strike).1.tu.current = none ∧
      (s.restartFrame strike).1.counters = s.counters ∧
      ((s.restartFrame strike).1.buf e.buf).state = .queued ∧
      ((s.buf e.buf).cls = some .urgent → (s.restartFrame strike).1.tu.routine = s.tu.routine ∧
        (s.restartFrame strike).1.tu.urgent =
          { back with headTime := some s.ms } :: s.tu.urgent.map (fun x => { x with headTime := none }) ∧
        (s.restartFrame strike).1.tu.watch = .running (s.now + 10000000)) ∧
      ((s.buf e.buf).cls ≠ some .urgent → (s.restartFrame strike).1.tu.urgent = s.tu.urgent ∧
        (s.restartFrame strike).1.tu.routine = back :: s.tu.routine ∧
        (s.restartFrame strike).1.tu.watch = s.tu.watch))

/-- CALIBRATION_COMPLETION of the calibration in progress: the guard stops, ownership is none, the receive unit takes up its
list's state, and the TU selects. A completion for a calibration whose guard has expired, or that a later restart has
replaced, changes no state but the clock. -/
def Obligations.CalibrationCompletion : Prop :=
  ∀ (dt begun : Nat) (s : State),
    (s.radio.owner = .heldOff → s.guards.calibration = some (begun + 3000) →
      exec (.calibrationCompletion dt begun) s = .next (State.finish s (State.select { s with
        now := s.now + dt
        guards := { s.guards with calibration := none }
        radio := { s.radio with owner := .none, rx := if s.su.list = .alert then .listening else .off } }))) ∧
    (s.guards.calibration ≠ some (begun + 3000) →
      exec (.calibrationCompletion dt begun) s = .next (State.finish s { s with now := s.now + dt }))

/-! ## Transmission -/

/-- Selection: an IDLE TU whose radio is not held off takes the urgent head, else the routine head when no hold runs, and
enters BACKOFF with a draw of its class; otherwise nothing changes. -/
def Obligations.Selection : Prop :=
  ∀ s : State,
    (s.tu.phase ≠ .idle ∨ s.tu.current ≠ none ∨ s.radio.owner = .heldOff → s.select = s) ∧
    (s.tu.phase = .idle → s.tu.current = none → s.radio.owner ≠ .heldOff →
      (∀ e rest, s.tu.urgent = e :: rest →
        s.select.tu.current = some e ∧ s.select.tu.urgent = rest ∧ s.select.tu.routine = s.tu.routine ∧
        s.select.tu.phase = .backoff ∧ (s.select.buf e.buf).state = .sending ∧
        ((s.buf e.buf).cls = some .urgent → ∃ k, 1 ≤ k ∧ k ≤ 4 ∧ s.select.tu.backoff = some (s.now + 5000 * k))) ∧
      (∀ e rest, s.tu.urgent = [] → s.tu.routine = e :: rest → (∀ n ∈ s.nt, n.hold = none) →
        s.select.tu.current = some e ∧ s.select.tu.routine = rest ∧ s.select.tu.phase = .backoff ∧
        (s.select.buf e.buf).state = .sending ∧
        ((s.buf e.buf).cls = some .routine → ∃ k, 1 ≤ k ∧ k ≤ 16 ∧ s.select.tu.backoff = some (s.now + 10000 * k))) ∧
      (s.tu.urgent = [] → (s.tu.routine = [] ∨ ∃ n ∈ s.nt, n.hold ≠ none) → s.select = s))

/-- BACKOFF_END, with the oscillator settled: a routine frame that meets a running hold returns to its queue; otherwise the
arbiter grants the radio at once, holds the request through a sample or a calibration, or answers busy. A returned frame
stands at the head of its queue with its deferral count, its buffer QUEUED, the radio released, and the transmit unit IDLE,
unless an urgent frame is then selected. -/
def Obligations.BackoffEnd : Prop :=
  (∀ (dt e : Nat) (s : State), s.tu.phase = .backoff → s.tu.backoff = some e → e ≤ s.now + dt → s.tu.waiting = false →
    s.settled = true →
    let ended : State := { s with now := s.now + dt, tu := { s.tu with backoff := none } }
    let held := s.currentClass = some .routine ∧ ∃ n ∈ s.nt, n.hold ≠ none
    (held → exec (.backoffEnd dt) s = .next (State.finish s ended.holdReturn)) ∧
    (¬ held → s.radio.owner = .none → exec (.backoffEnd dt) s = .next (State.finish s { ended with
      radio := { s.radio with owner := .tu, rx := .off }
      tu := { s.tu with backoff := none, phase := .assess }
      guards := { s.guards with assessment := some (s.now + dt + 2000) } })) ∧
    (¬ held → s.radio.owner = .heldOff ∨ s.radio.owner = .receiveUnit ∧ s.radio.rx = .sampling →
      exec (.backoffEnd dt) s = .next (State.finish s { ended with tu := { s.tu with backoff := none, waiting := true } })) ∧
    (¬ held → s.radio.owner = .receiveUnit → s.radio.rx ≠ .sampling →
      exec (.backoffEnd dt) s = .next (State.finish s ended.busyAssessment))) ∧
  (∀ (x : TxEntry) (s : State), s.tu.current = some x → (s.buf x.buf).cls = some .routine → (∃ n ∈ s.nt, n.hold ≠ none) →
    let back : State := State.setBuf x.buf { s.buf x.buf with state := .queued } { s with
      tu := { s.tu with current := none, routine := x :: s.tu.routine, phase := .idle, backoff := none, waiting := false,
                        preambleEnd := none }
      guards := { s.guards with assessment := none }
      radio := if s.radio.owner = .tu then
        { s.radio with owner := .none, rx := if s.su.list = .alert then .listening else .off } else s.radio }
    (s.tu.urgent = [] ∨ s.radio.owner = .heldOff → s.holdReturn = back) ∧
    (∀ u rest, s.tu.urgent = u :: rest → s.radio.owner ≠ .heldOff →
      s.holdReturn.tu.current = some u ∧ s.holdReturn.tu.urgent = rest ∧ s.holdReturn.tu.routine = x :: s.tu.routine ∧
      s.holdReturn.tu.phase = .backoff ∧ s.holdReturn.radio = back.radio ∧ s.holdReturn.guards = back.guards ∧
      (u.buf ≠ x.buf → s.holdReturn.buf x.buf = { s.buf x.buf with state := .queued })))

/-- A busy assessment or answer counts TX-DEFERRED. An urgent frame backs off again for 1 to 4 slots of 5 ms; a routine frame's
deferral count rises, and it backs off again for 1 to 16 slots of 10 ms below twelve; the twelfth abandons it: TX-ABANDONED is
counted, the frame leaves the transmit unit, its buffer is freed with the waiters served, the owner of an own FAULT is told,
and the transmit unit selects. The counts come before the waiters, and the waiters before the notice (log 47, log 39: the
model's choice). A buffer that no waiter takes stands FREE and empty. A freed buffer lowers the busy flag at 5 FREE buffers or
more, and the waiters are served: the urgent ones in the order they joined, then the pending PROFILE, then the pending HEALTH,
each as the one before it left the station. A relay copy is queued when an urgent place is free, its record and pin gone; an
own frame is made when its claim is allowed and a place is free; what is served is no longer waiting, and what is not stands.
Buffer and place fall free in the same event, and the waiters are served before the selection (log 10: the model's
choice). -/
def Obligations.BusyAssessment : Prop :=
  (∀ (e : TxEntry) (s : State), s.tu.current = some e →
    ((s.buf e.buf).cls = some .urgent → e.deferrals = none → ∃ k, 1 ≤ k ∧ k ≤ 4 ∧ s.busyAssessment = { s with
      draws := s.draws + 1
      counters := s.counters.set 8 (min 65535 (s.counters[8] + 1))
      tu := { s.tu with phase := .backoff, waiting := false, backoff := some (s.now + k * 5000) } }) ∧
    (∀ n, (s.buf e.buf).cls = some .routine → e.deferrals = some n → n < 11 →
      ∃ k, 1 ≤ k ∧ k ≤ 16 ∧ s.busyAssessment = { s with
        draws := s.draws + 1
        counters := s.counters.set 8 (min 65535 (s.counters[8] + 1))
        tu := { s.tu with phase := .backoff, waiting := false, backoff := some (s.now + k * 10000),
                          current := some { e with deferrals := some (n + 1) } } }) ∧
    (∀ n, e.deferrals = some n → 11 ≤ n →
      let left : State := State.freeAll [e.buf] { s with
        counters := (s.counters.set 8 (min 65535 (s.counters[8] + 1))).set 9 (min 65535 (s.counters[9] + 1))
        tu := { s.tu with current := none, phase := .idle, backoff := none, waiting := false } }
      s.busyAssessment =
        (if e.mark = .own ∧ Frame.kind (s.buf e.buf).frame = 6 then left.faultUnsent else left).select)) ∧
  (∀ (b : Fin 8) (s : State), (s.buf b).state ≠ .free → (s.pool.busy = true ∨ 3 ≤ s.pool.freeCount) → s.fu.waiters = [] →
    s.fu.pendingProfile = none → s.fu.pendingHealth = false →
    (State.freeAll [b] s).buf b = { state := .free, cls := none, frame := [], level := none }) ∧
  (∀ (b : Fin 8) (s : State), (s.buf b).state ≠ .free → (s.pool.busy = true ∨ 3 ≤ s.pool.freeCount) →
    let freed : State := { s with pool := {
      bufs := s.pool.bufs.set b.val { state := .free, cls := none, frame := [], level := none }
      busy := s.pool.busy && decide (s.pool.freeCount < 4) } }
    State.freeAll [b] s = ((s.fu.waiters.foldl State.serveOne freed).serveProfile).serveHealth) ∧
  (∀ (b : Fin 8) (s : State),
    (s.placeFree .urgent = false → s.serveOne (.relay b) = s) ∧
    (∀ w, s.placeFree .urgent = true → s.relayWaitOf b = some w →
      let t := s.serveOne (.relay b)
      t.fu = { s.fu with
        relayWaits := s.fu.relayWaits.filter (fun x => decide (x.buf ≠ b))
        waiters := s.fu.waiters.erase (.relay b)
        seen := s.fu.seen.map (fun e => if e.origin = w.origin then { e with pins := e.pins - 1 } else e) } ∧
      ((t.buf b).state = .queued ∨ (t.buf b).state = .sending) ∧ (t.buf b).frame = (s.buf b).frame ∧
      (∃ x ∈ t.tu.current.toList ++ t.tu.urgent, x.buf = b ∧ x.mark = .relay) ∧
      (w.cls = .urgent → s.PoolSound → s.UrgentTaken b t) ∧ t.SameDetection s)) ∧
  (∀ (w : Waiter) (o : OwnFrame) (s : State),
    (∃ c e, w = .fire c e ∧ o = .fire c e) ∨ w = .silence ∧ o = .silence ∨ (∃ p, w = .reset p) ∧ o = .reset →
    (¬ s.CanOriginate .urgent → s.serveOne w = s) ∧
    (s.CanOriginate .urgent → s.Originated o (s.serveOne w) ∧ (s.serveOne w).fu.waiters = s.fu.waiters.erase w ∧
      (s.serveOne w).SameDetection s)) ∧
  (∀ s : State,
    (s.fu.pendingProfile = none ∨ ¬ s.CanOriginate .routine → s.serveProfile = s) ∧
    (∀ p, s.fu.pendingProfile = some p → s.CanOriginate .routine → s.Originated (.profile p) s.serveProfile ∧
      s.serveProfile.fu.pendingProfile = none ∧ s.serveProfile.SameDetection s) ∧
    (s.fu.pendingHealth = false ∨ ¬ s.CanOriginate .routine → s.serveHealth = s) ∧
    (s.fu.pendingHealth = true → s.CanOriginate .routine → s.Originated .health s.serveHealth ∧
      s.serveHealth.fu.pendingHealth = false ∧ (∀ c, s.serveHealth.counter c = 0) ∧ s.serveHealth.SameDetection s))

/-- ASSESSMENT_END: at −100 dBm or below the TU keeps the radio and enters PREAMBLE, 520 ms for an urgent frame and for a
routine one unless there is a LIVE neighbour and every LIVE neighbour is known to listen, having been heard with its
alert-listening flag no more than 2000 ms ago; 4 ms then. The channel-blocked watch of the frame, running or expired, stops
there, and starts on the next urgent entry, if one stands in the queue. Above it releases the radio and backs off. -/
def Obligations.AssessmentEnd : Prop :=
  ∀ (dt : Nat) (level : Int) (s : State), s.tu.phase = .assess →
    let listening := (∃ n ∈ s.nt, n.status = .live) ∧
      ∀ n ∈ s.nt, n.status = .live → n.alert = true ∧ (s.now + dt) / 1000 - n.lastHeard ≤ 2000
    let short := s.currentClass ≠ some .urgent ∧ listening
    (level ≤ -100 → ∃ t, exec (.assessmentEnd dt level) s = .next t ∧ t.tu.phase = .preamble ∧
      t.guards = { s.guards with assessment := none } ∧ t.radio = s.radio ∧ t.counters = s.counters ∧
      (short → t.tu.preambleEnd = some (s.now + dt + 4000)) ∧
      (¬ short → t.tu.preambleEnd = some (s.now + dt + 520000)) ∧
      t.pool = s.pool ∧ t.SameDetection s ∧ t.tu.routine = s.tu.routine ∧
      (∀ x, s.tu.current = some x →
        let left : Watch := if x.headTime = none then s.tu.watch else .stopped
        t.tu.current = some { x with headTime := none } ∧
        (left ≠ .stopped ∨ s.tu.urgent = [] → t.tu.watch = left ∧ t.tu.urgent = s.tu.urgent) ∧
        (∀ u rest, left = .stopped → s.tu.urgent = u :: rest → t.tu.watch = .running (s.now + dt + 10000000) ∧
          t.tu.urgent = { u with headTime := some ((s.now + dt) / 1000) } :: rest))) ∧
    (-100 < level → s.radio.owner = .tu → exec (.assessmentEnd dt level) s = .next (State.finish s
      (State.busyAssessment { s with
        now := s.now + dt
        guards := { s.guards with assessment := none }
        radio := { s.radio with owner := .none, rx := if s.su.list = .alert then .listening else .off } })))

/-- PREAMBLE_END: a routine frame that meets a running hold returns without its body; otherwise the body starts: the flags,
the sender and the CRC are settled in the frame, and the body guard runs for the body time and 2 ms. The body of an own
OBSERVATION is composed there: state code, E, epoch, profile, zone and parts, with S and R on a MULTI station, and the
temperature and its rate of rise on a MULTI or HEAT station that has one. -/
def Obligations.PreambleEnd : Prop :=
  ∀ (dt e : Nat) (x : TxEntry) (s : State), s.tu.phase = .preamble → s.tu.preambleEnd = some e → e ≤ s.now + dt →
    s.tu.current = some x →
    let at_ : State := { s with now := s.now + dt }
    let held := s.currentClass = some .routine ∧ ∃ n ∈ s.nt, n.hold ≠ none
    (held → exec (.preambleEnd dt) s = .next (State.finish s at_.holdReturn)) ∧
    (¬ held → ∃ t, exec (.preambleEnd dt) s = .next t ∧ t.tu.phase = .body ∧ t.tu.current = some x ∧
      (t.tu.sentAlert = true ↔ s.su.list = .alert ∨ s.cfg.role = .relay ∨ s.cfg.role = .panel) ∧
      t.radio = s.radio ∧ t.counters = s.counters ∧ t.SameDetection s ∧
      (∀ b, b ≠ x.buf → t.buf b = s.buf b) ∧ (t.buf x.buf).state = (s.buf x.buf).state ∧
      (x.mark = .relay ∨ Frame.kind (s.buf x.buf).frame ≠ kindObservation →
        (t.buf x.buf).frame = Frame.withCrc (settleHeader
          (headerFlags s.pool.busy t.tu.sentAlert s.cfg.role) s.cfg.address (s.buf x.buf).frame)) ∧
      (x.mark = .own → Frame.kind (s.buf x.buf).frame = kindObservation → ∃ smoke heat : List Byte,
        (t.buf x.buf).frame = Frame.withCrc (settleHeader (headerFlags s.pool.busy t.tu.sentAlert s.cfg.role)
          s.cfg.address (Frame.compose s.cfg kindObservation
            (BitVec.ofNat 8 s.det.state.code :: nat16Bytes s.ev.e ++ [s.fu.epoch, s.det.profile.code, s.cfg.zone,
              BitVec.ofNat 8 ((if smoke = [] then 0 else 1) + (if heat = [] then 0 else 2))] ++ smoke ++ heat))) ∧
        (∀ sig r, s.cfg.role = .multi → s.ev.smoke = some sig → s.ev.ratio = some r →
          smoke = nat16Bytes sig ++ [BitVec.ofNat 8 r]) ∧
        (s.cfg.role ≠ .multi ∨ s.ev.smoke = none ∨ s.ev.ratio = none → smoke = []) ∧
        (∀ th, s.cfg.role = .multi ∨ s.cfg.role = .heat → s.ev.theta = some th →
          heat = int16Bytes th ++ int16Bytes s.ev.ror) ∧
        (s.cfg.role = .relay ∨ s.cfg.role = .panel ∨ s.ev.theta = none → heat = [])) ∧
      t.guards = { s.guards with
        body := some (s.now + dt + (11 + Frame.length (t.buf x.buf).frame) * 160 + 2000) })

/-- BODY_END: TX-SENT is counted, RELAY-SENT beside it for a relay copy; the guard stops, the carrier is off, the radio is
released to the list's state, the buffer is freed with the waiters served, and the commitment of a MULTI or HEAT station
restarts if the flag went out set; then the notice of an own FAULT, the clear of CHANNEL-BLOCKED after an urgent body, and
the selection (order: log 8). The notice makes composed records reported; reported CLEARED records leave the list, and the
storage-loss mark goes when that brings it below eight. -/
def Obligations.BodyEnd : Prop :=
  (∀ (dt : Nat) (x : TxEntry) (s : State), s.tu.phase = .body → s.tu.current = some x → s.radio.owner = .tu →
    let sent := s.counters.set 7 (min 65535 (s.counters[7] + 1))
    let freed : State := State.freeAll [x.buf] { s with
      now := s.now + dt
      counters := if x.mark = .relay then sent.set 10 (min 65535 (sent[10] + 1)) else sent
      guards := { s.guards with body := none }
      radio := { s.radio with owner := .none, rx := if s.su.list = .alert then .listening else .off }
      tu := { s.tu with current := none, phase := .idle } }
    let committed : State := if s.tu.sentAlert = true ∧ s.isDetector = true then
      { freed with su := { freed.su with commitment := some (s.now + dt + 3000000) } } else freed
    let told := if x.mark = .own ∧ Frame.kind (s.buf x.buf).frame = 6 then
      State.look { committed with faults := committed.faults.bodyEnded } else committed
    let urgent := (s.buf x.buf).cls = some .urgent
    exec (.bodyEnd dt) s = .next (State.finish s
      (if urgent then State.clear .channelBlocked s.cfg.address told else told).select)) ∧
  (∀ (dt : Nat) (x : TxEntry) (s : State), s.tu.phase = .body → s.tu.current = some x → s.radio.owner = .tu →
    ∃ t, exec (.bodyEnd dt) s = .next t ∧
      (s.fu.pendingHealth = false →
        t.counter .txSent = min 65535 (s.counter .txSent + 1) ∧
        t.counter .relaySent =
          (if x.mark = .relay then min 65535 (s.counter .relaySent + 1) else s.counter .relaySent)) ∧
      t.guards.body = none ∧ t.radio.owner = .none ∧
      t.radio.rx = (if s.su.list = .alert then .listening else .off) ∧ (t.tu.phase = .idle ∨ t.tu.phase = .backoff) ∧
      t.su.commitment = (if s.tu.sentAlert = true ∧ (s.isDetector = true) then some (s.now + dt + 3000000)
        else s.su.commitment) ∧ t.su.list = s.su.list ∧ t.SameDetection s ∧
      ((s.buf x.buf).cls = some .urgent → s.TablesKeyed → ¬ t.FaultActive .channelBlocked s.cfg.address)) ∧
  (∀ (f : FaultLog) (r : FaultRecord),
    (r ∈ f.bodyEnded.records ↔ (r.active = true ∨ r.reported = false) ∧ ∃ q ∈ f.records,
      r = if q.composed then { q with reported := true, composed := false } else q) ∧
    f.bodyEnded.records.length ≤ f.records.length ∧
    (f.bodyEnded.storageLoss = true ↔ f.storageLoss = true ∧
      ¬ (f.bodyEnded.records.length < f.records.length ∧ f.bodyEnded.records.length < 8)))

/-- CHANNEL_BLOCKED_WATCH_EXPIRY: the watch stands expired; in RUN CHANNEL-BLOCKED is raised at once, in DOZE the raise is
held until the settle end that follows. -/
def Obligations.WatchExpiry : Prop :=
  ∀ (dt e : Nat) (s : State), s.tu.watch = .running e → e ≤ s.now + dt →
    (s.su.power = .run → s.FaultStorable .channelBlocked s.cfg.address →
      ∃ t, exec (.channelBlockedWatchExpiry dt) s = .next t ∧ t.FaultActive .channelBlocked s.cfg.address ∧
        t.tu.watch = .expired ∧ t.SameDetection s) ∧
    (s.su.power = .doze → exec (.channelBlockedWatchExpiry dt) s = .next (State.finish s { s with
      now := s.now + dt
      tu := { s.tu with watch := .expired }
      su := { s.su with held := s.su.held ++ [.channelBlocked] } }))

/-! ## Flooding -/

/-- The seen list's judgement of a flood, and the list it leaves. For an origin with an unexpired entry: the table of run and
sequence, with the entry's run, highest sequence and marks after an acceptance, and the list as it was, its expired entries
removed, after a discard. For an origin without one: accepted with a new entry, for which the unpinned entry earliest updated
gives way when 24 stand. An accepted flood goes on to its epoch; a duplicate counts RX-DUPLICATE and is heard by its relay
wait; a stale one counts RX-STALE; the buffer of a discarded flood is freed after the counts (log 47: the model's
choice). -/
def Obligations.SeenJudgement : Prop :=
  (∀ (ms : Ms) (run seq : BitVec 8) (x : SeenEntry) (l : List SeenEntry), (l.map (·.origin)).Nodup → x ∈ l →
    (x.pins ≠ 0 ∨ ms - x.updated < 300000) →
    let r := seenTake ms x.origin run seq l
    let kept := l.filter (fun e => decide (e.pins ≠ 0 ∨ ms - e.updated < 300000))
    let taken (run h : BitVec 8) (marks : List (BitVec 8)) : SeenVerdict × List SeenEntry :=
      (.accepted, kept.map (fun e =>
        if e.origin = x.origin then { x with run := run, h := h, marks := marks, updated := ms } else e))
    let below (h m : BitVec 8) : Prop := 1 ≤ (h - m).toNat ∧ (h - m).toNat ≤ 7
    let k := (x.h - seq).toNat
    (newer run x.run = true → r = taken run seq []) ∧
    (older run x.run = true → r = (.stale, kept)) ∧
    (run = x.run → 129 ≤ k → ∃ marks, r = taken run seq marks ∧
      ∀ m, m ∈ marks ↔ below seq m ∧ (m = x.h ∨ m ∈ x.marks)) ∧
    (run = x.run → k = 0 → r = (.duplicate, kept)) ∧
    (run = x.run → 1 ≤ k → k ≤ 7 → seq ∈ x.marks → r = (.duplicate, kept)) ∧
    (run = x.run → 1 ≤ k → k ≤ 7 → seq ∉ x.marks → ∃ marks, r = taken run x.h marks ∧
      ∀ m, m ∈ marks ↔ below x.h m ∧ (m = seq ∨ m ∈ x.marks)) ∧
    (run = x.run → 8 ≤ k → k ≤ 128 → r = (.stale, kept))) ∧
  (∀ (ms : Ms) (origin : Addr) (run seq : BitVec 8) (l : List SeenEntry),
    (∀ e ∈ l, e.origin = origin → e.pins = 0 ∧ 300000 ≤ ms - e.updated) →
    let kept := l.filter (fun e => decide (e.pins ≠ 0 ∨ ms - e.updated < 300000))
    let fresh : SeenEntry := { origin := origin, run := run, h := seq, marks := [], updated := ms, pins := 0 }
    (kept.length < 24 → seenTake ms origin run seq l = (.accepted, kept ++ [fresh])) ∧
    (24 ≤ kept.length → ∀ y ∈ kept, y.pins = 0 →
      (∀ z ∈ kept, z.pins = 0 → y.updated < z.updated ∨ y.updated = z.updated ∧ y.origin.toNat ≤ z.origin.toNat) →
      seenTake ms origin run seq l = (.accepted, kept.filter (fun e => decide (e.origin ≠ y.origin)) ++ [fresh]))) ∧
  (∀ (b : Fin 8) (s : State),
    let f := (s.buf b).frame
    let r := seenTake (s.now / 1000) (Frame.origin f) (Frame.run f) (Frame.seq f) s.fu.seen
    let seen : State := { s with fu := { s.fu with seen := r.2 } }
    (r.1 = .accepted → s.floodDispatch b = seen.acceptFlood b) ∧
    (r.1 = .duplicate → s.floodDispatch b = State.freeAll [b]
      (State.copyHeard (Frame.origin f) (Frame.run f) (Frame.seq f) { seen with
        counters := s.counters.set 4 (min 65535 (s.counters[4] + 1)) })) ∧
    (r.1 = .stale → s.floodDispatch b = State.freeAll [b] { seen with
      counters := s.counters.set 5 (min 65535 (s.counters[5] + 1)) }))

/-- DEBOUNCE_END of the panel's lines, in RUN, and the RESET actions. A silence press marks every listed entry silenced and
clears the flag: the sounder falls, the entries and the fire relay stay; and a SILENCE is made, or left pending. A reset press
begins the next epoch by the RESET actions: the list is emptied, the sounder and the fire relay fall, the detection state is
QUIET, the remote fault set is empty, no FIRE or SILENCE is pending; and a RESET of the new epoch is made, or left pending.
The RESET actions, whatever brings them, also purge every FIRE and SILENCE of an older epoch from the urgent queue, the relay
waits and, unless its body is on the air, the transmit unit, stop the channel-blocked watch of a purged frame and start it on
the new leading urgent frame, if there is one, and clear every reported mark. A change of the profile line makes
a PROFILE, or leaves it pending, starts or stops the refresh timer, and hands the profile to the own detection unit, which
takes it into force, keeps it, or holds it until VERIFY ends. -/
def Obligations.PanelPresses : Prop :=
  (∀ (dt e : Nat) (s : State), s.isPanel = true → s.sc.learning = .ended → s.sc.inert = false → s.su.power = .run →
     s.lu.silenceLine.debounce = some e → e ≤ s.now + dt → s.lu.silenceLine.raw = true → s.lu.silenceLine.level = false →
     ∃ t, exec (.debounceEnd dt .silence) s = .next t ∧ t.lu.sounder = false ∧ t.fu.overflow = false ∧
       t.fu.fires = s.fu.fires.map (fun f => { f with silenced := true }) ∧ t.lu.silenceLine.level = true ∧
       t.lu.silenceLine.debounce = none ∧
       t.lu.fireRelay = (!s.fu.fires.isEmpty) ∧ t.fu.epoch = s.fu.epoch ∧ t.det = s.det ∧ t.nt = s.nt ∧
       (s.CanOriginate .urgent → t.fu.seqCounter = s.fu.seqCounter + 1 ∧ ∃ b, (s.buf b).state = .free ∧
         (t.buf b).cls = some .urgent ∧ (t.buf b).frame = Frame.compose s.cfg kindSilence
           (floodHeader s.cfg s.fu.run s.fu.seqCounter s.fu.epoch) ∧ (s.PoolSound → s.UrgentTaken b t)) ∧
       (¬ s.CanOriginate .urgent → .silence ∈ t.fu.waiters ∧ t.fu.seqCounter = s.fu.seqCounter ∧ t.pool = s.pool ∧
         t.tu = s.tu)) ∧
  (∀ (dt e : Nat) (s : State), s.isPanel = true → s.sc.learning = .ended → s.sc.inert = false → s.su.power = .run →
     s.lu.resetLine.debounce = some e → e ≤ s.now + dt → s.lu.resetLine.raw = true → s.lu.resetLine.level = false →
     ∃ t, exec (.debounceEnd dt .reset) s = .next t ∧ t.fu.epoch = s.fu.epoch + 1 ∧ t.fu.fires = [] ∧
       t.fu.overflow = false ∧ t.lu.sounder = false ∧ t.lu.fireRelay = false ∧ t.det.state = .quiet ∧
       t.det.cause = none ∧ t.det.refresh = none ∧ t.lu.remote = [] ∧ t.lu.remoteOverflow = false ∧
       t.nt = s.nt ∧ t.ev = s.ev ∧
       (∀ w ∈ t.fu.waiters, w ≠ .silence ∧ ∀ c ed, w ≠ .fire c ed) ∧
       (.reset (s.fu.epoch + 1) ∈ t.fu.waiters ∨ ∃ b q, ((t.buf b).state = .queued ∨ (t.buf b).state = .sending) ∧
         (t.buf b).cls = some .urgent ∧
         (t.buf b).frame = Frame.compose s.cfg kindReset (floodHeader s.cfg s.fu.run q (s.fu.epoch + 1)))) ∧
  (∀ (e : BitVec 8) (origin : Addr) (zone : Byte) (s : State),
     let t := s.resetActions e origin zone
     let old (f : List Byte) : Prop := (Frame.kind f = 2 ∨ Frame.kind f = 3) ∧ older (Frame.epoch f) e = true
     t.fu.epoch = e ∧ t.fu.fires = [] ∧ t.fu.overflow = false ∧ t.det.state = .quiet ∧ t.det.verifyStart = none ∧
       t.det.cause = none ∧ t.det.evidence = none ∧ t.det.refresh = none ∧ t.nt = s.nt ∧ t.ev = s.ev ∧
       (∀ r ∈ t.faults.records, r.reported = false) ∧
       (∀ w ∈ t.fu.waiters, w ≠ .silence ∧ (∀ c ed, w ≠ .fire c ed) ∧ ∀ p, w = .reset p → older p e = false) ∧
       (s.isPanel = true → t.lu.remote = [] ∧ t.lu.remoteOverflow = false) ∧
       (s.PoolSound → (s.tu.phase = .idle → s.tu.current = none) →
         (∀ x ∈ t.tu.urgent, ¬ old (t.buf x.buf).frame) ∧ (∀ w ∈ t.fu.relayWaits, ¬ old (t.buf w.buf).frame) ∧
         (∀ x ∈ t.tu.current, (t.buf x.buf).cls = some .urgent → t.tu.phase ≠ .body → ¬ old (t.buf x.buf).frame) ∧
         ((∃ x ∈ s.tu.urgent ++ (if s.tu.phase = .body then [] else s.tu.current.toList),
             old (s.buf x.buf).frame ∧ x.headTime ≠ none) →
           t.tu.watch = .running (s.now + 10000000) ∨
             t.tu.watch = .stopped ∧ t.tu.urgent = [] ∧ t.currentLeads = false))) ∧
  (∀ (dt e : Nat) (s : State), s.isPanel = true → s.sc.learning = .ended → s.sc.inert = false → s.su.power = .run →
     s.lu.profileLine.debounce = some e → e ≤ s.now + dt → s.lu.profileLine.raw ≠ s.lu.profileLine.level →
     let p : Profile := if s.lu.profileLine.raw = true then .service else .normal
     let limit : Option Nat := some (s.now + dt + 14400000000)
     ∃ t, exec (.debounceEnd dt .profile) s = .next t ∧ t.nt = s.nt ∧ t.ev = s.ev ∧ t.fu.fires = s.fu.fires ∧
       t.lu.profileLine = { s.lu.profileLine with level := s.lu.profileLine.raw, debounce := none } ∧
       t.fu.profileRefresh = (if p = .service then some (s.now + dt + 1800000000) else none) ∧
       (s.CanOriginate .routine → t.fu.seqCounter = s.fu.seqCounter + 1 ∧ t.fu.pendingProfile = s.fu.pendingProfile ∧
         ∃ b, (s.buf b).state = .free ∧ (t.buf b).frame = Frame.compose s.cfg kindProfile
           (floodHeader s.cfg s.fu.run s.fu.seqCounter s.fu.epoch ++ [p.code])) ∧
       (¬ s.CanOriginate .routine → t.fu.seqCounter = s.fu.seqCounter ∧ t.fu.pendingProfile = some p) ∧
       (s.cfg.serviceApplies = false → t.det = s.det) ∧
       (s.cfg.serviceApplies = true →
         (s.det.state = .verify → p = s.det.profile → t.det = { s.det with
           pendingProfile := none
           serviceLimit := if p = .service then limit else s.det.serviceLimit }) ∧
         (s.det.state = .verify → p ≠ s.det.profile → t.det = { s.det with pendingProfile := some p }) ∧
         (s.det.state ≠ .verify → p = s.det.profile → t.det = { s.det with
           serviceLimit := if p = .service then limit else s.det.serviceLimit }) ∧
         (s.det.state ≠ .verify → p ≠ s.det.profile → t.det = { s.det with
           profile := p
           serviceLimit := if p = .service then limit else none })))

/-- A listed fire origin stays listed, with its zone and cause, and once silenced stays silenced, in every event that adopts
no other epoch. The kind action of an accepted flood: a FIRE enters its origin, unless it is listed, or sets the overflow flag
when eight others stand; a SILENCE marks every entry and clears the flag; a PROFILE goes to the detection unit; a FAULT's items
go, in order, to the remote fault set of a PANEL station; RESET and HEALTH bring none. Each item raises or clears one entry of
the set, whose seventeenth entry sets the remote overflow flag. -/
def Obligations.FireOriginsStay : Prop :=
  (∀ (i : Instr) (s t : State) (f : FireOrigin), exec i s = .next t → (∀ dt, i ≠ .startUpReset dt) →
    .resetPress ∉ s.su.held → t.fu.epoch = s.fu.epoch → f ∈ s.fu.fires →
    ∃ g ∈ t.fu.fires, g.origin = f.origin ∧ g.zone = f.zone ∧ g.cause = f.cause ∧
      (f.silenced = true → g.silenced = true)) ∧
  (∀ (f : List Byte) (s : State),
    let o := Frame.origin f
    let z := Frame.originZone f
    (Frame.kind f = 2 → (∃ x ∈ s.fu.fires, x.origin = o) → s.kindAction f = s) ∧
    (Frame.kind f = 2 → (∀ x ∈ s.fu.fires, x.origin ≠ o) → s.fu.fires.length < 8 → s.kindAction f =
      State.panelRecord .fireAdded o z (Frame.body f 8) 0 { s with fu := { s.fu with
        fires := s.fu.fires ++ [{ origin := o, zone := z, cause := Frame.body f 8, silenced := false }] } }) ∧
    (Frame.kind f = 2 → (∀ x ∈ s.fu.fires, x.origin ≠ o) → 8 ≤ s.fu.fires.length → s.kindAction f =
      { s with fu := { s.fu with overflow := true } }) ∧
    (Frame.kind f = 3 → s.kindAction f = State.panelRecord .silenced o z 0 0 { s with fu := { s.fu with
      fires := s.fu.fires.map (fun x => { x with silenced := true }), overflow := false } }) ∧
    (Frame.kind f = 4 ∨ Frame.kind f = 7 → s.kindAction f = s) ∧
    (Frame.kind f = 5 → s.kindAction f = s.profileRequest (if Frame.body f 8 = 0 then .normal else .service)) ∧
    (Frame.kind f = 6 → s.isPanel = true →
      s.kindAction f = (Frame.faultItems f).foldl (fun t i => t.remoteItem o z i) s) ∧
    (Frame.kind f = 6 → s.isPanel = false → s.kindAction f = s)) ∧
  (∀ (origin subject : Addr) (zone code act : Byte) (s : State),
    let entry : RemoteFault := { origin := origin, code := code, subject := subject }
    let item := (code, subject, act)
    (act = 1 → entry ∈ s.lu.remote → s.remoteItem origin zone item =
      State.panelRecord .faultRaised origin zone code (subject.extractLsb' 0 8) s) ∧
    (act = 1 → entry ∉ s.lu.remote → s.lu.remote.length < 16 → s.remoteItem origin zone item =
      State.panelRecord .faultRaised origin zone code (subject.extractLsb' 0 8) { s with
        lu := { s.lu with remote := s.lu.remote ++ [entry] } }) ∧
    (act = 1 → entry ∉ s.lu.remote → 16 ≤ s.lu.remote.length → s.remoteItem origin zone item =
      State.panelRecord .faultRaised origin zone code (subject.extractLsb' 0 8) { s with
        lu := { s.lu with remoteOverflow := true } }) ∧
    (act ≠ 1 → s.remoteItem origin zone item =
      State.panelRecord .faultCleared origin zone code (subject.extractLsb' 0 8) { s with
        lu := { s.lu with remote := s.lu.remote.erase entry } }))

/-- The relay of an accepted flood, from its decision to its offer. A flood at its hop limit is not relayed and its buffer is
freed. Another is relayed from its own buffer: one hop more, the own address as sender, every other byte kept; its record and
a pin of its origin's seen entry are made, and its wait is drawn from 8 values 8 ms apart or 16 values 50 ms apart; a draw of
0 ends the wait in the same event. A duplicate heard while the wait runs is counted in its record; the second of a routine
wait suppresses the relay, counted before the waiters of its buffer are served (log 47: the model's choice). RELAY_WAIT_END,
with the oscillator settled: a copy for which a place is free is queued as a relay copy and its record goes, an urgent one as
every urgent offer, which preempts a routine frame before its body; an urgent copy with no place joins the waiters; a routine
one with no place is dropped. -/
def Obligations.RelayWaitEnd : Prop :=
  (∀ (dt : Nat) (w : RelayWait) (s : State), s.relayWaitOf w.buf = some w → w.running = true → w.endsAt ≤ s.now + dt →
    s.settled = true →
    (s.placeFree w.cls = true → ∃ t, exec (.relayWaitEnd dt w.buf) s = .next t ∧ t.relayWaitOf w.buf = none ∧
      ((t.buf w.buf).state = .queued ∨ (t.buf w.buf).state = .sending) ∧
      (t.buf w.buf).frame = (s.buf w.buf).frame ∧ t.SameDetection s ∧
      (w.cls = .urgent → s.PoolSound → s.UrgentTaken w.buf t) ∧
      ∃ x ∈ t.tu.current.toList ++ t.tu.urgent ++ t.tu.routine, x.buf = w.buf ∧ x.mark = .relay) ∧
    (s.placeFree w.cls = false → w.cls = .urgent → .relay w.buf ∉ s.fu.waiters →
      exec (.relayWaitEnd dt w.buf) s = .next (State.finish s { s with
        now := s.now + dt
        fu := { s.fu with
          relayWaits := s.fu.relayWaits.map (fun x => if x.buf = w.buf then { x with running := false } else x)
          waiters := s.fu.waiters ++ [.relay w.buf] } })) ∧
    (s.placeFree w.cls = false → w.cls = .routine → s.fu.pendingHealth = false →
      ∃ t, exec (.relayWaitEnd dt w.buf) s = .next t ∧ t.relayWaitOf w.buf = none ∧ t.SameDetection s ∧
        t.counter .txAbandoned = min 65535 (s.counter .txAbandoned + 1))) ∧
  (∀ (b : Fin 8) (s : State),
    let f := (s.buf b).frame
    let urgent := Frame.kind f = 2 ∨ Frame.kind f = 3 ∨ Frame.kind f = 4
    (Frame.hopLimit f ≤ Frame.hops f → s.relay b = State.freeAll [b] s) ∧
    (Frame.hops f < Frame.hopLimit f → ∃ (g : List Byte) (k : Nat), k ≤ (if urgent then 7 else 15) ∧
      (∀ i, i ≠ 4 → i ≠ 5 → i ≠ 11 → g[i]? = f[i]?) ∧ g.length = f.length ∧
      (12 ≤ f.length → Frame.sender g = s.cfg.address ∧ Frame.hops g = Frame.hops f + 1 ∧
        Frame.hopLimit g = Frame.hopLimit f) ∧
      (let wait := k * (if urgent then 8000 else 50000)
       let copy : State := State.setBuf b { s.buf b with state := .relayWait, frame := g } { s with
         draws := s.draws + 1
         fu := { s.fu with
           relayWaits := s.fu.relayWaits ++ [{
             buf := b, origin := Frame.origin f, run := Frame.run f, seq := Frame.seq f,
             cls := if urgent then .urgent else .routine, endsAt := s.now + wait, copies := 0, running := true }]
           seen := s.fu.seen.map (fun e => if e.origin = Frame.origin f then { e with pins := e.pins + 1 } else e) } }
       (wait ≠ 0 → s.relay b = copy) ∧
       (wait = 0 → s.relay b = State.relayOffer b { copy with fu := { copy.fu with
         relayWaits := copy.fu.relayWaits.map (fun w => if w.buf = b then { w with running := false } else w) } })))) ∧
  (∀ (origin : Addr) (run seq : BitVec 8) (s : State),
    let hit (w : RelayWait) : Prop := w.running = true ∧ w.origin = origin ∧ w.run = run ∧ w.seq = seq
    ((∀ w ∈ s.fu.relayWaits, ¬ hit w) → s.copyHeard origin run seq = s) ∧
    (∀ w ∈ s.fu.relayWaits, hit w → (∀ x ∈ s.fu.relayWaits, hit x ∨ x.buf = w.buf → x = w) →
      (w.cls = .routine → 1 ≤ w.copies → s.copyHeard origin run seq = State.freeAll [w.buf] { s with
        counters := s.counters.set 11 (min 65535 (s.counters[11] + 1))
        fu := { s.fu with
          relayWaits := s.fu.relayWaits.filter (fun x => decide (x.buf ≠ w.buf))
          waiters := s.fu.waiters.erase (.relay w.buf)
          seen := s.fu.seen.map (fun e => if e.origin = origin then { e with pins := e.pins - 1 } else e) } }) ∧
      (w.cls = .urgent ∨ w.copies = 0 → s.copyHeard origin run seq = { s with fu := { s.fu with
        relayWaits := s.fu.relayWaits.map (fun x =>
          if x.buf = w.buf then { x with copies := min 255 (x.copies + 1) } else x) } })))

/-- PROFILE_REFRESH_TIMER_EXPIRY: the timer restarts for 30 min; a PROFILE(SERVICE) is made, or left pending; and the own
detection unit is handed SERVICE: where service applies, SERVICE is in force with its limit restarted, but in VERIFY a
NORMAL in force stays with SERVICE pending. -/
def Obligations.ProfileRefresh : Prop :=
  ∀ (dt e : Nat) (s : State), s.fu.profileRefresh = some e → e ≤ s.now + dt →
    let limit : Option Nat := some (s.now + dt + 14400000000)
    ∃ t, exec (.profileRefreshTimerExpiry dt) s = .next t ∧ t.fu.profileRefresh = some (e + 1800000000) ∧
      t.fu.fires = s.fu.fires ∧ t.nt = s.nt ∧ t.ev = s.ev ∧
      (s.cfg.serviceApplies = false → t.det = s.det) ∧
      (s.cfg.serviceApplies = true → s.det.state ≠ .verify →
        t.det = { s.det with profile := .service, serviceLimit := limit }) ∧
      (s.cfg.serviceApplies = true → s.det.state = .verify → s.det.profile = .normal →
        t.det = { s.det with pendingProfile := some .service }) ∧
      (s.cfg.serviceApplies = true → s.det.state = .verify → s.det.profile = .service →
        t.det = { s.det with pendingProfile := none, serviceLimit := limit }) ∧
      (s.CanOriginate .routine → t.fu.seqCounter = s.fu.seqCounter + 1 ∧ t.fu.pendingProfile = s.fu.pendingProfile ∧
        ∃ b, (s.buf b).state = .free ∧ (t.buf b).cls = some .routine ∧ (t.buf b).frame = Frame.compose s.cfg kindProfile
          (floodHeader s.cfg s.fu.run s.fu.seqCounter s.fu.epoch ++ [1])) ∧
      (¬ s.CanOriginate .routine → t.fu.seqCounter = s.fu.seqCounter ∧ t.fu.pendingProfile = some .service)

/-! ## Schedule and power -/

/-- ENTRY_BOUNDARY, with the oscillator settled: the next boundary is 500 ms later. On a MULTI or HEAT station a cause found on
the quiet list switches to alert entry 1 and its scan; without one the quiet list goes on with its sample, and its scan at
entry 1; on the alert list the station stays unless no cause is found, the hold has run out, no commitment runs and no
flagged body is on the air. A RELAY or PANEL station makes no look: its entry advances and asks for its scan. -/
def Obligations.EntryBoundary : Prop :=
  (∀ (dt e : Nat) (s : State), s.isDetector = true → s.su.nextBoundary = some e → e ≤ s.now + dt → s.settled = true →
     let cause := s.det.state ≠ .quiet ∨ s.fu.fires ≠ [] ∨ s.fu.overflow = true ∨
       (∃ n ∈ s.nt, n.status = .live ∧ ∃ r, n.report = some r ∧ (r.state = .verify ∨ r.state = .fire) ∧
         (s.now + dt) / 1000 - r.heardAt ≤ 10000) ∨ s.su.startWindow ≠ none ∨ s.sv.selfTest ≠ .idle ∨
       s.sv.selfTestEnded = true
     let leaves := ¬ cause ∧ s.su.hold = .runOut ∧ s.su.commitment = none ∧ ¬ (s.tu.phase = .body ∧ s.tu.sentAlert = true)
     (s.su.list ≠ .none → ∃ t, exec (.entryBoundary dt) s = .next t ∧
       t.su.nextBoundary = some (e + 500000) ∧ t.sv = { s.sv with selfTestEnded := false } ∧
       t.det = s.det ∧ t.ev = s.ev ∧ t.nt = s.nt ∧ t.fu = s.fu ∧ t.tu = s.tu ∧ t.counters = s.counters ∧
       (s.su.list = .quiet → cause → t.su.list = .alert ∧ t.su.position = 1 ∧ t.su.hold = .stopped ∧ t.mu.scan ≠ none ∧
         (s.radio.owner = .none → t.radio.rx = .listening)) ∧
       (s.su.list = .quiet → ¬ cause → t.su.list = .quiet ∧
         t.su.position = (if s.su.position < 4 then s.su.position + 1 else 1) ∧ t.su.hold = s.su.hold ∧
         (t.su.position = 1 → t.mu.scan ≠ none) ∧ (t.su.position ≠ 1 → t.mu = s.mu) ∧
         (s.radio.rx = .off → s.radio.owner = .none → t.radio.rx = .sampling ∧ t.radio.owner = .receiveUnit ∧
           t.radio.sampleEnd = some (s.now + dt + 4000)) ∧
         (¬ (s.radio.rx = .off ∧ s.radio.owner = .none) → t.radio = s.radio)) ∧
       (s.su.list = .alert → leaves → t.su.list = .quiet ∧ t.su.position = 1 ∧ t.su.hold = .stopped ∧ t.mu.scan ≠ none ∧
         (s.radio.owner = .none → t.radio.rx = .sampling)) ∧
       (s.su.list = .alert → ¬ leaves → t.su.list = .alert ∧ t.mu.scan ≠ none ∧ t.radio = s.radio ∧
         t.su.position = (if s.su.position < 2 then s.su.position + 1 else 1) ∧
         (cause → t.su.hold = .stopped) ∧
         (¬ cause → t.su.hold = (if s.su.hold = .stopped then .running (s.now + dt + 60000000) else s.su.hold))))) ∧
  (∀ (dt e : Nat) (s : State), s.isDetector = false → s.su.list = .alert → s.su.nextBoundary = some e →
     e ≤ s.now + dt → s.settled = true → s.mu.scan = none → s.sc.learning ≠ .learning →
     exec (.entryBoundary dt) s = .next (State.finish s { s with
       now := s.now + dt
       su := { s.su with nextBoundary := some (e + 500000),
                         position := if s.su.position < 2 then s.su.position + 1 else 1 }
       mu := { s.mu with seq := s.mu.seq + 1,
                         scan := some { seq := s.mu.seq + 1, startedAt := s.now + dt, awaitedLearning := false,
                                        awaitedSelfTest := false } }
       guards := { s.guards with scan := some (s.now + dt + 5000) } }))

/-- START_UP_WINDOW_EXPIRY, ALERT_HOLD_EXPIRY and ALERT_COMMITMENT_EXPIRY mark their timers and start no work. SCHEDULED_LEAVE at
the next boundary less the settle time: a dozing station runs and settles, so that its settle ends on the boundary. -/
def Obligations.ScheduleTimers : Prop :=
  (∀ (dt e : Nat) (s : State), e ≤ s.now + dt →
     (s.su.startWindow = some e → exec (.startUpWindowExpiry dt) s = .next (State.finish s { s with
       now := s.now + dt, su := { s.su with startWindow := none } })) ∧
     (s.su.hold = .running e → exec (.alertHoldExpiry dt) s = .next (State.finish s { s with
       now := s.now + dt, su := { s.su with hold := .runOut } })) ∧
     (s.su.commitment = some e → exec (.alertCommitmentExpiry dt) s = .next (State.finish s { s with
       now := s.now + dt, su := { s.su with commitment := none } }))) ∧
  (∀ (dt b : Nat) (s : State), s.su.power = .doze → s.su.nextBoundary = some b →
     s.now + dt + 500 * 2 ^ s.cfg.settleCode = b →
     exec (.scheduledLeave dt) s = .next (State.finish s { s with
       now := s.now + dt
       su := { s.su with power := .run, settleEnd := some b } }))

/-- SETTLE_END does the held work in the order in which it was held (log 13: the model's choice), and nothing is held after
it. -/
def Obligations.SettleEnd : Prop :=
  ∀ (dt e : Nat) (s : State), s.su.settleEnd = some e → e ≤ s.now + dt →
    ∃ t, exec (.settleEnd dt) s = .next t ∧
      t = State.finish s (s.su.held.foldl (fun x w => x.perform w) { s with
        now := s.now + dt, su := { s.su with settleEnd := none, held := [] } }) ∧
      (s.su.held = [] → t.mu = s.mu ∧ t.ev = s.ev ∧ t.tu = s.tu ∧ t.fu = s.fu ∧ t.su.held = [] ∧ t.su.settleEnd = none) ∧
      (∀ th, s.su.held = [.heatPush] → s.ev.candidate = some th →
        t.ev = { s.ev with ring := ringPush s.ev.ring th, candidate := none } ∧ t.su.held = [])

/-! ## Supervision -/

/-- In RUN, STALL_TIMER_EXPIRY ends RADIO-STALL and FAILED_TIMER_EXPIRY ends RADIO-FAILED with the history emptied; neither
changes which other faults stand. REPORT_RETRY_TIMER_EXPIRY makes a reporting look. A look with an own FAULT in flight, or
with no unreported record, changes nothing. Any other look asks for a FAULT of the oldest unreported records, up to four, in
their age order. Where it can be made, it carries exactly those records, and exactly those take the composed mark, with the
retry timer stopped; where not, the timer runs for 2 s unless it runs already. -/
def Obligations.SupervisionTimers : Prop :=
  (∀ (dt e : Nat) (s : State), s.su.power = .run → e ≤ s.now + dt → s.TablesKeyed →
     (s.sv.stall = some e → ∃ t, exec (.stallTimerExpiry dt) s = .next t ∧ ¬ t.FaultActive .radioStall s.cfg.address ∧
       t.sv = { s.sv with stall := none } ∧ t.SameDetection s ∧
       ∀ c a, (c, a) ≠ (.radioStall, s.cfg.address) → (t.FaultActive c a ↔ s.FaultActive c a)) ∧
     (s.sv.failed = some e → ∃ t, exec (.failedTimerExpiry dt) s = .next t ∧
       ¬ t.FaultActive .radioFailed s.cfg.address ∧ t.sv = { s.sv with failed := none, history := [] } ∧
       t.SameDetection s ∧ ∀ c a, (c, a) ≠ (.radioFailed, s.cfg.address) → (t.FaultActive c a ↔ s.FaultActive c a))) ∧
  (∀ (dt e : Nat) (s : State), s.su.power = .run → s.faults.retry = some e → e ≤ s.now + dt →
     exec (.reportRetryTimerExpiry dt) s = .next (State.finish s (State.look { s with
       now := s.now + dt
       faults := { s.faults with retry := none } }))) ∧
  (∀ s : State,
     let unreported (r : FaultRecord) : Prop := r ∈ s.faults.records ∧ r.reported = false ∧ r.composed = false
     let asks := s.ownInFlight kindFault = false ∧ ∃ r, unreported r
     (¬ asks → s.look = s) ∧
     (asks → ¬ s.CanOriginate .routine → s.look =
       { s with faults := { s.faults with
         retry := if s.faults.retry = none then some (s.now + 2000000) else s.faults.retry } }) ∧
     (asks → s.CanOriginate .routine → s.TablesKeyed →
       let before (a b : FaultRecord) : Prop := a.raisedAt < b.raisedAt ∨ a.raisedAt = b.raisedAt ∧
         (a.code.code.toNat < b.code.code.toNat ∨ a.code = b.code ∧ a.subject.toNat < b.subject.toNat)
       ∃ (chosen : List FaultRecord) (b : Fin 8),
         (∀ r ∈ chosen, unreported r) ∧ 1 ≤ chosen.length ∧ chosen.length ≤ 4 ∧ chosen.Pairwise before ∧
         (∀ r, unreported r → r ∉ chosen → chosen.length = 4 ∧ ∀ x ∈ chosen, before x r) ∧
         s.look.faults = { s.faults with
           records := s.faults.records.map (fun r => if r ∈ chosen then { r with composed := true } else r)
           retry := none } ∧
         s.look.SameDetection s ∧ s.look.fu.seqCounter = s.fu.seqCounter + 1 ∧ s.look.ownInFlight kindFault = true ∧
         (s.buf b).state = .free ∧ (s.look.buf b).cls = some .routine ∧
         (s.look.buf b).frame = Frame.compose s.cfg kindFault (floodHeader s.cfg s.fu.run s.fu.seqCounter s.fu.epoch ++
           BitVec.ofNat 8 chosen.length ::
             chosen.flatMap (fun r => r.code.code :: le16Bytes r.subject ++ [if r.active then 1 else 0]))))

/-- What a raise and a clear do to the fault list. -/
def Obligations.RaiseAndClear : Prop :=
  ∀ (c : FaultCode) (a : Addr) (now : Ms) (f : FaultLog), (f.records.map (fun r => (r.code, r.subject))).Nodup →
    let new : FaultRecord :=
      { code := c, subject := a, active := true, reported := false, composed := false, raisedAt := now }
    (∀ r ∈ f.records, r.code = c → r.subject = a →
      (r.active = true → f.raise c a now = (false, f)) ∧
      (r.active = false → (f.raise c a now).1 = true ∧ (f.raise c a now).2.records.Perm (new :: f.records.erase r)) ∧
      (r.active = true → (f.clear c a).1 = true ∧ (f.clear c a).2.records.Perm
        ({ r with active := false, reported := false, composed := false } :: f.records.erase r)) ∧
      (r.active = false → f.clear c a = (false, f))) ∧
    ((∀ r ∈ f.records, ¬ (r.code = c ∧ r.subject = a)) →
      f.clear c a = (false, f) ∧
      (f.records.length < 8 → f.raise c a now = (true, { f with records := f.records ++ [new] })) ∧
      (8 ≤ f.records.length → (∀ r ∈ f.records, r.active = true) →
        f.raise c a now = (false, { f with storageLoss := true })) ∧
      (8 ≤ f.records.length → (∃ r ∈ f.records, r.active = false) →
        ∃ old ∈ f.records, old.active = false ∧ (∀ r ∈ f.records, r.active = false → old.raisedAt ≤ r.raisedAt) ∧
          f.raise c a now = (true, { f with records := f.records.erase old ++ [new] })))

/-- HEALTH_TIMER_EXPIRY, with the oscillator settled: the next period runs from the expiry; where a HEALTH can be made it
carries the sixteen counters, which are zeroed, and otherwise its mark is set and no counter changes. -/
def Obligations.HealthTimer : Prop :=
  ∀ (dt e : Nat) (s : State), s.sv.health = some e → e ≤ s.now + dt → s.settled = true →
    ∃ t, exec (.healthTimerExpiry dt) s = .next t ∧ t.sv = { s.sv with health := some (e + s.cfg.healthPeriod * 3600000000) } ∧
      t.SameDetection s ∧
      (s.CanOriginate .routine → (∀ c, t.counter c = 0) ∧ t.fu.seqCounter = s.fu.seqCounter + 1 ∧
        ∃ b, (s.buf b).state = .free ∧ (t.buf b).frame = Frame.compose s.cfg kindHealth
          (floodHeader s.cfg s.fu.run s.fu.seqCounter s.fu.epoch ++ s.counters.toList.flatMap nat16Bytes ++
            nat16Bytes (s.mu.latched.elim 0 (fun l => l.v.toNat)))) ∧
      (¬ s.CanOriginate .routine → t.counters = s.counters ∧ t.fu = { s.fu with pendingHealth := true } ∧
        t.pool = s.pool)

/-! ## Lines -/

/-- INPUT_EDGE on the test line of any station and on the profile, silence and reset lines of a PANEL station, out of the
reset state: the line's level changes, its 50 ms debounce starts or starts again, and a dozing station leaves DOZE. On
another role with its record applied an edge on a panel line changes that line's level alone. DEBOUNCE_END: the level that
stood 50 ms becomes the debounced level; after step 3 a press starts press timing, and in RUN a release before its 3000 ms is
a short press; before that, and when inert, no work starts. LONG_PRESS in RUN: press timing ends and a self-test starts with
its scan, unless one is in progress. -/
def Obligations.TestLine : Prop :=
  (∀ (dt : Nat) (s : State), s.sc.inReset = false →
     let edge (i : Input) : Input := { i with raw := !i.raw, debounce := some (s.now + dt + 50000) }
     let level (i : Input) : Input := { i with raw := !i.raw }
     let seen (l : Lu) : State := { s with
       now := s.now + dt
       lu := l
       su := { s.su with
         power := .run
         settleEnd := if s.su.power = .doze then some (s.now + dt + 500 * 2 ^ s.cfg.settleCode) else s.su.settleEnd } }
     let unseen (l : Lu) : State := { s with now := s.now + dt, lu := l }
     exec (.inputEdge dt .test) s = .next (State.finish s (seen { s.lu with test := edge s.lu.test })) ∧
     (s.isPanel = true →
       exec (.inputEdge dt .profile) s = .next (State.finish s
         (seen { s.lu with profileLine := edge s.lu.profileLine })) ∧
       exec (.inputEdge dt .silence) s = .next (State.finish s
         (seen { s.lu with silenceLine := edge s.lu.silenceLine })) ∧
       exec (.inputEdge dt .reset) s = .next (State.finish s (seen { s.lu with resetLine := edge s.lu.resetLine }))) ∧
     (s.isPanel = false → s.sc.config ≠ none →
       exec (.inputEdge dt .profile) s = .next (State.finish s
         (unseen { s.lu with profileLine := level s.lu.profileLine })) ∧
       exec (.inputEdge dt .silence) s = .next (State.finish s
         (unseen { s.lu with silenceLine := level s.lu.silenceLine })) ∧
       exec (.inputEdge dt .reset) s = .next (State.finish s
         (unseen { s.lu with resetLine := level s.lu.resetLine })))) ∧
  (∀ (dt e : Nat) (s : State), s.lu.test.debounce = some e → e ≤ s.now + dt →
     let settled : State := { s with
       now := s.now + dt
       lu := { s.lu with test := { s.lu.test with level := s.lu.test.raw, debounce := none } } }
     ((s.lu.test.raw = s.lu.test.level ∨ s.sc.learning ≠ .ended ∨ s.sc.inert = true) →
       exec (.debounceEnd dt .test) s = .next (State.finish s settled)) ∧
     (s.sc.learning = .ended → s.sc.inert = false → s.lu.test.raw = true → s.lu.test.level = false →
       exec (.debounceEnd dt .test) s = .next (State.finish s { settled with
         lu := { settled.lu with press := some (s.now + dt + 3000000) } })) ∧
     (∀ p, s.sc.learning = .ended → s.sc.inert = false → s.lu.test.raw = false → s.lu.test.level = true →
       s.lu.press = some p → s.now + dt < p → s.su.power = .run →
       ∃ t, exec (.debounceEnd dt .test) s = .next t ∧ t.lu.press = none ∧ t.lu.test.level = false ∧
         t.lu.statePattern = some (s.now + dt + 2000000) ∧ t.sv = s.sv ∧ t.SameDetection s ∧
         (s.CanOriginate .routine → t.ownInFlight kindObservation = true))) ∧
  (∀ (dt e : Nat) (s : State), s.lu.press = some e → e ≤ s.now + dt → s.lu.test.level = true → s.su.power = .run →
     (s.sv.selfTest = .idle → ∃ t, exec (.longPress dt) s = .next t ∧ t.lu.press = none ∧ t.sv.selfTest = .scanning ∧
       (∃ x, t.mu.scan = some x ∧ x.awaitedSelfTest = true) ∧ t.det = s.det ∧ t.ev = s.ev ∧ t.nt = s.nt ∧ t.fu = s.fu) ∧
     (s.sv.selfTest ≠ .idle → exec (.longPress dt) s = .next (State.finish s { s with
       now := s.now + dt, lu := { s.lu with press := none } })))

/-- LED_PERIOD_START shows the pattern of highest rank for its period from the period's own start; STATE_PATTERN_END ends
the 2 s of the state pattern. -/
def Obligations.LedPeriods : Prop :=
  ∀ (dt e : Nat) (s : State), e ≤ s.now + dt →
    (s.lu.ledNext = some e → ∃ t, exec (.ledPeriodStart dt) s = .next t ∧ t.lu.ledStart = e ∧
      (s.sc.inert = true → t.lu.led = .tripleFlash ∧ t.lu.ledNext = some (e + 1000000)) ∧
      (s.sc.inert = false → s.fu.fires ≠ [] → t.lu.led = .steady ∧ t.lu.ledNext = some (e + 2000000)) ∧
      (s.sc.inert = false → s.fu.fires = [] → s.lu.statePattern = none → s.det.state = .verify →
        t.lu.led = .doubleFlash ∧ t.lu.ledNext = some (e + 2000000)) ∧
      (s.sc.inert = false → s.fu.fires = [] → s.lu.statePattern = none → s.det.state ≠ .verify →
        (∃ r ∈ s.faults.records, r.active = true) ∨ s.faults.storageLoss = true →
        t.lu.led = .singleFlash ∧ t.lu.ledNext = some (e + 2000000)) ∧
      (s.sc.inert = false → s.fu.fires = [] → s.lu.statePattern = none → s.det.state ≠ .verify →
        (∀ r ∈ s.faults.records, r.active = false) → s.faults.storageLoss = false →
        t.lu.led = .slowFlash ∧ t.lu.ledNext = some (e + 30000000)) ∧
      (∀ p, s.sc.inert = false → s.fu.fires = [] → s.lu.statePattern = some p → s.now + dt < p →
        t.lu.led = .statePattern (s.det.state.code + 1) ∧ t.lu.ledNext = some (e + 2000000))) ∧
    (s.lu.statePattern = some e → exec (.statePatternEnd dt) s = .next (State.finish s { s with
      now := s.now + dt, lu := { s.lu with statePattern := none } }))

/-- STATUS_RECORD_SENT: the head record leaves; a lost-count record takes the freed place and zeroes the count when records were
dropped; the next record's 6.25 ms run from this one's end. A record offered on a PANEL station is queued; with sixteen
standing it takes the place of a head whose sending ends at that very time (log 42: the record is taken first), and is
otherwise dropped and counted; the other roles keep no queue. -/
def Obligations.StatusLine : Prop :=
  (∀ (dt e : Nat) (r : StatusRecord) (rest : List StatusRecord) (s : State), s.lu.sendEnd = some e → e ≤ s.now + dt →
     s.lu.records = r :: rest →
     let lost : StatusRecord :=
       { type := .lost, origin := s.cfg.address, zone := s.cfg.zone, code := 0, detail := BitVec.ofNat 8 s.lu.lost }
     let queue := if s.lu.lost = 0 then rest else rest ++ [lost]
     exec (.statusRecordSent dt) s = .next (State.finish s { s with
       now := s.now + dt
       lu := { s.lu with records := queue, lost := 0, sendEnd := if queue = [] then none else some (e + 6250) } })) ∧
  (∀ (r : StatusRecord) (s : State),
     (s.isPanel = false → s.panelRecord r.type r.origin r.zone r.code r.detail = s) ∧
     (s.isPanel = true → s.lu.records.length < 16 →
       s.panelRecord r.type r.origin r.zone r.code r.detail = { s with lu := { s.lu with
         records := s.lu.records ++ [r]
         sendEnd := if s.lu.records = [] then some (s.now + 6250) else s.lu.sendEnd } }) ∧
     (s.isPanel = true → 16 ≤ s.lu.records.length → s.lu.sendEnd = some s.now →
       s.panelRecord r.type r.origin r.zone r.code r.detail = { s with lu := { s.lu with
         records := s.lu.records.drop 1 ++ [r]
         sendEnd := some (s.now + 6250) } }) ∧
     (s.isPanel = true → 16 ≤ s.lu.records.length → s.lu.sendEnd ≠ some s.now →
       s.panelRecord r.type r.origin r.zone r.code r.detail =
         { s with lu := { s.lu with lost := min 255 (s.lu.lost + 1) } }))

/-! ## Invariants -/

/-- The state after reset is sound. -/
def Obligations.ResetIsSound : Prop :=
  State.reset.LinesFollow ∧ State.reset.InRange ∧ State.reset.TablesKeyed ∧ State.reset.PoolSound ∧
    State.reset.pending = [] ∧ State.reset.sc.inReset = true

/-- After every step the sounder and the relays stand as their conditions say. -/
def Obligations.LinesFollowKept : Prop :=
  ∀ s t : State, s.LinesFollow → step s = .next t → t.LinesFollow

/-- Every step keeps the figures, counts and lists of the blocks within the ranges the spec gives them (`State.InRange`), and
the frame pool in agreement with the queues, the frame in progress, the relay waits, the frame being taken, the waiters and
the seen list (`State.PoolSound`): every buffer in one place at most, in the state and class that place gives it, and FREE and
empty in none; the busy flag raised at a FREE count of 3 or less and lowered at 5 or more. -/
def Obligations.RangesKept : Prop :=
  (∀ s t : State, s.InRange → step s = .next t → t.InRange) ∧
  (∀ s t : State, s.PoolSound → step s = .next t → t.PoolSound)

/-- Every step keeps one entry per key in every table. -/
def Obligations.TablesKeyedKept : Prop :=
  ∀ s t : State, s.TablesKeyed → step s = .next t → t.TablesKeyed
end

