-- ==== Sys2Proof/Laws/State.lean ====
section
/-! SUPPORT. What each named update leaves as it was, field by field, so that no later proof unfolds a record update. -/
namespace Sys2Proof.Machine

/-! ## elapse -/

@[simp] theorem State.elapse_draws (dt : Us) (s : State) : (State.elapse dt s).draws = s.draws := rfl
@[simp] theorem State.elapse_pending (dt : Us) (s : State) : (State.elapse dt s).pending = s.pending := rfl
@[simp] theorem State.elapse_mu (dt : Us) (s : State) : (State.elapse dt s).mu = s.mu := rfl
@[simp] theorem State.elapse_ev (dt : Us) (s : State) : (State.elapse dt s).ev = s.ev := rfl
@[simp] theorem State.elapse_det (dt : Us) (s : State) : (State.elapse dt s).det = s.det := rfl
@[simp] theorem State.elapse_nt (dt : Us) (s : State) : (State.elapse dt s).nt = s.nt := rfl
@[simp] theorem State.elapse_radio (dt : Us) (s : State) : (State.elapse dt s).radio = s.radio := rfl
@[simp] theorem State.elapse_pool (dt : Us) (s : State) : (State.elapse dt s).pool = s.pool := rfl
@[simp] theorem State.elapse_tu (dt : Us) (s : State) : (State.elapse dt s).tu = s.tu := rfl
@[simp] theorem State.elapse_fu (dt : Us) (s : State) : (State.elapse dt s).fu = s.fu := rfl
@[simp] theorem State.elapse_su (dt : Us) (s : State) : (State.elapse dt s).su = s.su := rfl
@[simp] theorem State.elapse_guards (dt : Us) (s : State) : (State.elapse dt s).guards = s.guards := rfl
@[simp] theorem State.elapse_faults (dt : Us) (s : State) : (State.elapse dt s).faults = s.faults := rfl
@[simp] theorem State.elapse_counters (dt : Us) (s : State) : (State.elapse dt s).counters = s.counters := rfl
@[simp] theorem State.elapse_sv (dt : Us) (s : State) : (State.elapse dt s).sv = s.sv := rfl
@[simp] theorem State.elapse_lu (dt : Us) (s : State) : (State.elapse dt s).lu = s.lu := rfl
@[simp] theorem State.elapse_sc (dt : Us) (s : State) : (State.elapse dt s).sc = s.sc := rfl

/-! ## drawn -/

@[simp] theorem State.drawn_now (s : State) : (State.drawn s).now = s.now := rfl
@[simp] theorem State.drawn_pending (s : State) : (State.drawn s).pending = s.pending := rfl
@[simp] theorem State.drawn_mu (s : State) : (State.drawn s).mu = s.mu := rfl
@[simp] theorem State.drawn_ev (s : State) : (State.drawn s).ev = s.ev := rfl
@[simp] theorem State.drawn_det (s : State) : (State.drawn s).det = s.det := rfl
@[simp] theorem State.drawn_nt (s : State) : (State.drawn s).nt = s.nt := rfl
@[simp] theorem State.drawn_radio (s : State) : (State.drawn s).radio = s.radio := rfl
@[simp] theorem State.drawn_pool (s : State) : (State.drawn s).pool = s.pool := rfl
@[simp] theorem State.drawn_tu (s : State) : (State.drawn s).tu = s.tu := rfl
@[simp] theorem State.drawn_fu (s : State) : (State.drawn s).fu = s.fu := rfl
@[simp] theorem State.drawn_su (s : State) : (State.drawn s).su = s.su := rfl
@[simp] theorem State.drawn_guards (s : State) : (State.drawn s).guards = s.guards := rfl
@[simp] theorem State.drawn_faults (s : State) : (State.drawn s).faults = s.faults := rfl
@[simp] theorem State.drawn_counters (s : State) : (State.drawn s).counters = s.counters := rfl
@[simp] theorem State.drawn_sv (s : State) : (State.drawn s).sv = s.sv := rfl
@[simp] theorem State.drawn_lu (s : State) : (State.drawn s).lu = s.lu := rfl
@[simp] theorem State.drawn_sc (s : State) : (State.drawn s).sc = s.sc := rfl

/-! ## count -/

@[simp] theorem State.count_now (c : Counter) (s : State) : (State.count c s).now = s.now := rfl
@[simp] theorem State.count_draws (c : Counter) (s : State) : (State.count c s).draws = s.draws := rfl
@[simp] theorem State.count_pending (c : Counter) (s : State) : (State.count c s).pending = s.pending := rfl
@[simp] theorem State.count_mu (c : Counter) (s : State) : (State.count c s).mu = s.mu := rfl
@[simp] theorem State.count_ev (c : Counter) (s : State) : (State.count c s).ev = s.ev := rfl
@[simp] theorem State.count_det (c : Counter) (s : State) : (State.count c s).det = s.det := rfl
@[simp] theorem State.count_nt (c : Counter) (s : State) : (State.count c s).nt = s.nt := rfl
@[simp] theorem State.count_radio (c : Counter) (s : State) : (State.count c s).radio = s.radio := rfl
@[simp] theorem State.count_pool (c : Counter) (s : State) : (State.count c s).pool = s.pool := rfl
@[simp] theorem State.count_tu (c : Counter) (s : State) : (State.count c s).tu = s.tu := rfl
@[simp] theorem State.count_fu (c : Counter) (s : State) : (State.count c s).fu = s.fu := rfl
@[simp] theorem State.count_su (c : Counter) (s : State) : (State.count c s).su = s.su := rfl
@[simp] theorem State.count_guards (c : Counter) (s : State) : (State.count c s).guards = s.guards := rfl
@[simp] theorem State.count_faults (c : Counter) (s : State) : (State.count c s).faults = s.faults := rfl
@[simp] theorem State.count_sv (c : Counter) (s : State) : (State.count c s).sv = s.sv := rfl
@[simp] theorem State.count_lu (c : Counter) (s : State) : (State.count c s).lu = s.lu := rfl
@[simp] theorem State.count_sc (c : Counter) (s : State) : (State.count c s).sc = s.sc := rfl

/-! ## startGuard -/

@[simp] theorem State.startGuard_now (n : GuardName) (d : Us) (s : State) : (State.startGuard n d s).now = s.now := rfl
@[simp] theorem State.startGuard_draws (n : GuardName) (d : Us) (s : State) : (State.startGuard n d s).draws = s.draws := rfl
@[simp] theorem State.startGuard_pending (n : GuardName) (d : Us) (s : State) : (State.startGuard n d s).pending = s.pending := rfl
@[simp] theorem State.startGuard_mu (n : GuardName) (d : Us) (s : State) : (State.startGuard n d s).mu = s.mu := rfl
@[simp] theorem State.startGuard_ev (n : GuardName) (d : Us) (s : State) : (State.startGuard n d s).ev = s.ev := rfl
@[simp] theorem State.startGuard_det (n : GuardName) (d : Us) (s : State) : (State.startGuard n d s).det = s.det := rfl
@[simp] theorem State.startGuard_nt (n : GuardName) (d : Us) (s : State) : (State.startGuard n d s).nt = s.nt := rfl
@[simp] theorem State.startGuard_radio (n : GuardName) (d : Us) (s : State) : (State.startGuard n d s).radio = s.radio := rfl
@[simp] theorem State.startGuard_pool (n : GuardName) (d : Us) (s : State) : (State.startGuard n d s).pool = s.pool := rfl
@[simp] theorem State.startGuard_tu (n : GuardName) (d : Us) (s : State) : (State.startGuard n d s).tu = s.tu := rfl
@[simp] theorem State.startGuard_fu (n : GuardName) (d : Us) (s : State) : (State.startGuard n d s).fu = s.fu := rfl
@[simp] theorem State.startGuard_su (n : GuardName) (d : Us) (s : State) : (State.startGuard n d s).su = s.su := rfl
@[simp] theorem State.startGuard_faults (n : GuardName) (d : Us) (s : State) : (State.startGuard n d s).faults = s.faults := rfl
@[simp] theorem State.startGuard_counters (n : GuardName) (d : Us) (s : State) : (State.startGuard n d s).counters = s.counters := rfl
@[simp] theorem State.startGuard_sv (n : GuardName) (d : Us) (s : State) : (State.startGuard n d s).sv = s.sv := rfl
@[simp] theorem State.startGuard_lu (n : GuardName) (d : Us) (s : State) : (State.startGuard n d s).lu = s.lu := rfl
@[simp] theorem State.startGuard_sc (n : GuardName) (d : Us) (s : State) : (State.startGuard n d s).sc = s.sc := rfl

/-! ## stopGuard -/

@[simp] theorem State.stopGuard_now (n : GuardName) (s : State) : (State.stopGuard n s).now = s.now := rfl
@[simp] theorem State.stopGuard_draws (n : GuardName) (s : State) : (State.stopGuard n s).draws = s.draws := rfl
@[simp] theorem State.stopGuard_pending (n : GuardName) (s : State) : (State.stopGuard n s).pending = s.pending := rfl
@[simp] theorem State.stopGuard_mu (n : GuardName) (s : State) : (State.stopGuard n s).mu = s.mu := rfl
@[simp] theorem State.stopGuard_ev (n : GuardName) (s : State) : (State.stopGuard n s).ev = s.ev := rfl
@[simp] theorem State.stopGuard_det (n : GuardName) (s : State) : (State.stopGuard n s).det = s.det := rfl
@[simp] theorem State.stopGuard_nt (n : GuardName) (s : State) : (State.stopGuard n s).nt = s.nt := rfl
@[simp] theorem State.stopGuard_radio (n : GuardName) (s : State) : (State.stopGuard n s).radio = s.radio := rfl
@[simp] theorem State.stopGuard_pool (n : GuardName) (s : State) : (State.stopGuard n s).pool = s.pool := rfl
@[simp] theorem State.stopGuard_tu (n : GuardName) (s : State) : (State.stopGuard n s).tu = s.tu := rfl
@[simp] theorem State.stopGuard_fu (n : GuardName) (s : State) : (State.stopGuard n s).fu = s.fu := rfl
@[simp] theorem State.stopGuard_su (n : GuardName) (s : State) : (State.stopGuard n s).su = s.su := rfl
@[simp] theorem State.stopGuard_faults (n : GuardName) (s : State) : (State.stopGuard n s).faults = s.faults := rfl
@[simp] theorem State.stopGuard_counters (n : GuardName) (s : State) : (State.stopGuard n s).counters = s.counters := rfl
@[simp] theorem State.stopGuard_sv (n : GuardName) (s : State) : (State.stopGuard n s).sv = s.sv := rfl
@[simp] theorem State.stopGuard_lu (n : GuardName) (s : State) : (State.stopGuard n s).lu = s.lu := rfl
@[simp] theorem State.stopGuard_sc (n : GuardName) (s : State) : (State.stopGuard n s).sc = s.sc := rfl

/-! ## setBuf -/

@[simp] theorem State.setBuf_now (b : Fin 8) (x : Buffer) (s : State) : (State.setBuf b x s).now = s.now := rfl
@[simp] theorem State.setBuf_draws (b : Fin 8) (x : Buffer) (s : State) : (State.setBuf b x s).draws = s.draws := rfl
@[simp] theorem State.setBuf_pending (b : Fin 8) (x : Buffer) (s : State) : (State.setBuf b x s).pending = s.pending := rfl
@[simp] theorem State.setBuf_mu (b : Fin 8) (x : Buffer) (s : State) : (State.setBuf b x s).mu = s.mu := rfl
@[simp] theorem State.setBuf_ev (b : Fin 8) (x : Buffer) (s : State) : (State.setBuf b x s).ev = s.ev := rfl
@[simp] theorem State.setBuf_det (b : Fin 8) (x : Buffer) (s : State) : (State.setBuf b x s).det = s.det := rfl
@[simp] theorem State.setBuf_nt (b : Fin 8) (x : Buffer) (s : State) : (State.setBuf b x s).nt = s.nt := rfl
@[simp] theorem State.setBuf_radio (b : Fin 8) (x : Buffer) (s : State) : (State.setBuf b x s).radio = s.radio := rfl
@[simp] theorem State.setBuf_tu (b : Fin 8) (x : Buffer) (s : State) : (State.setBuf b x s).tu = s.tu := rfl
@[simp] theorem State.setBuf_fu (b : Fin 8) (x : Buffer) (s : State) : (State.setBuf b x s).fu = s.fu := rfl
@[simp] theorem State.setBuf_su (b : Fin 8) (x : Buffer) (s : State) : (State.setBuf b x s).su = s.su := rfl
@[simp] theorem State.setBuf_guards (b : Fin 8) (x : Buffer) (s : State) : (State.setBuf b x s).guards = s.guards := rfl
@[simp] theorem State.setBuf_faults (b : Fin 8) (x : Buffer) (s : State) : (State.setBuf b x s).faults = s.faults := rfl
@[simp] theorem State.setBuf_counters (b : Fin 8) (x : Buffer) (s : State) : (State.setBuf b x s).counters = s.counters := rfl
@[simp] theorem State.setBuf_sv (b : Fin 8) (x : Buffer) (s : State) : (State.setBuf b x s).sv = s.sv := rfl
@[simp] theorem State.setBuf_lu (b : Fin 8) (x : Buffer) (s : State) : (State.setBuf b x s).lu = s.lu := rfl
@[simp] theorem State.setBuf_sc (b : Fin 8) (x : Buffer) (s : State) : (State.setBuf b x s).sc = s.sc := rfl

/-! ## moveBuf -/

@[simp] theorem State.moveBuf_now (b : Fin 8) (st : BufState) (s : State) : (State.moveBuf b st s).now = s.now := rfl
@[simp] theorem State.moveBuf_draws (b : Fin 8) (st : BufState) (s : State) : (State.moveBuf b st s).draws = s.draws := rfl
@[simp] theorem State.moveBuf_pending (b : Fin 8) (st : BufState) (s : State) : (State.moveBuf b st s).pending = s.pending := rfl
@[simp] theorem State.moveBuf_mu (b : Fin 8) (st : BufState) (s : State) : (State.moveBuf b st s).mu = s.mu := rfl
@[simp] theorem State.moveBuf_ev (b : Fin 8) (st : BufState) (s : State) : (State.moveBuf b st s).ev = s.ev := rfl
@[simp] theorem State.moveBuf_det (b : Fin 8) (st : BufState) (s : State) : (State.moveBuf b st s).det = s.det := rfl
@[simp] theorem State.moveBuf_nt (b : Fin 8) (st : BufState) (s : State) : (State.moveBuf b st s).nt = s.nt := rfl
@[simp] theorem State.moveBuf_radio (b : Fin 8) (st : BufState) (s : State) : (State.moveBuf b st s).radio = s.radio := rfl
@[simp] theorem State.moveBuf_tu (b : Fin 8) (st : BufState) (s : State) : (State.moveBuf b st s).tu = s.tu := rfl
@[simp] theorem State.moveBuf_fu (b : Fin 8) (st : BufState) (s : State) : (State.moveBuf b st s).fu = s.fu := rfl
@[simp] theorem State.moveBuf_su (b : Fin 8) (st : BufState) (s : State) : (State.moveBuf b st s).su = s.su := rfl
@[simp] theorem State.moveBuf_guards (b : Fin 8) (st : BufState) (s : State) : (State.moveBuf b st s).guards = s.guards := rfl
@[simp] theorem State.moveBuf_faults (b : Fin 8) (st : BufState) (s : State) : (State.moveBuf b st s).faults = s.faults := rfl
@[simp] theorem State.moveBuf_counters (b : Fin 8) (st : BufState) (s : State) : (State.moveBuf b st s).counters = s.counters := rfl
@[simp] theorem State.moveBuf_sv (b : Fin 8) (st : BufState) (s : State) : (State.moveBuf b st s).sv = s.sv := rfl
@[simp] theorem State.moveBuf_lu (b : Fin 8) (st : BufState) (s : State) : (State.moveBuf b st s).lu = s.lu := rfl
@[simp] theorem State.moveBuf_sc (b : Fin 8) (st : BufState) (s : State) : (State.moveBuf b st s).sc = s.sc := rfl

/-! ## setFrame -/

@[simp] theorem State.setFrame_now (b : Fin 8) (f : List Byte) (s : State) : (State.setFrame b f s).now = s.now := rfl
@[simp] theorem State.setFrame_draws (b : Fin 8) (f : List Byte) (s : State) : (State.setFrame b f s).draws = s.draws := rfl
@[simp] theorem State.setFrame_pending (b : Fin 8) (f : List Byte) (s : State) : (State.setFrame b f s).pending = s.pending := rfl
@[simp] theorem State.setFrame_mu (b : Fin 8) (f : List Byte) (s : State) : (State.setFrame b f s).mu = s.mu := rfl
@[simp] theorem State.setFrame_ev (b : Fin 8) (f : List Byte) (s : State) : (State.setFrame b f s).ev = s.ev := rfl
@[simp] theorem State.setFrame_det (b : Fin 8) (f : List Byte) (s : State) : (State.setFrame b f s).det = s.det := rfl
@[simp] theorem State.setFrame_nt (b : Fin 8) (f : List Byte) (s : State) : (State.setFrame b f s).nt = s.nt := rfl
@[simp] theorem State.setFrame_radio (b : Fin 8) (f : List Byte) (s : State) : (State.setFrame b f s).radio = s.radio := rfl
@[simp] theorem State.setFrame_tu (b : Fin 8) (f : List Byte) (s : State) : (State.setFrame b f s).tu = s.tu := rfl
@[simp] theorem State.setFrame_fu (b : Fin 8) (f : List Byte) (s : State) : (State.setFrame b f s).fu = s.fu := rfl
@[simp] theorem State.setFrame_su (b : Fin 8) (f : List Byte) (s : State) : (State.setFrame b f s).su = s.su := rfl
@[simp] theorem State.setFrame_guards (b : Fin 8) (f : List Byte) (s : State) : (State.setFrame b f s).guards = s.guards := rfl
@[simp] theorem State.setFrame_faults (b : Fin 8) (f : List Byte) (s : State) : (State.setFrame b f s).faults = s.faults := rfl
@[simp] theorem State.setFrame_counters (b : Fin 8) (f : List Byte) (s : State) : (State.setFrame b f s).counters = s.counters := rfl
@[simp] theorem State.setFrame_sv (b : Fin 8) (f : List Byte) (s : State) : (State.setFrame b f s).sv = s.sv := rfl
@[simp] theorem State.setFrame_lu (b : Fin 8) (f : List Byte) (s : State) : (State.setFrame b f s).lu = s.lu := rfl
@[simp] theorem State.setFrame_sc (b : Fin 8) (f : List Byte) (s : State) : (State.setFrame b f s).sc = s.sc := rfl

/-! ## queueRecord -/

@[simp] theorem State.queueRecord_now (r : StatusRecord) (s : State) : (State.queueRecord r s).now = s.now := rfl
@[simp] theorem State.queueRecord_draws (r : StatusRecord) (s : State) : (State.queueRecord r s).draws = s.draws := rfl
@[simp] theorem State.queueRecord_pending (r : StatusRecord) (s : State) : (State.queueRecord r s).pending = s.pending := rfl
@[simp] theorem State.queueRecord_mu (r : StatusRecord) (s : State) : (State.queueRecord r s).mu = s.mu := rfl
@[simp] theorem State.queueRecord_ev (r : StatusRecord) (s : State) : (State.queueRecord r s).ev = s.ev := rfl
@[simp] theorem State.queueRecord_det (r : StatusRecord) (s : State) : (State.queueRecord r s).det = s.det := rfl
@[simp] theorem State.queueRecord_nt (r : StatusRecord) (s : State) : (State.queueRecord r s).nt = s.nt := rfl
@[simp] theorem State.queueRecord_radio (r : StatusRecord) (s : State) : (State.queueRecord r s).radio = s.radio := rfl
@[simp] theorem State.queueRecord_pool (r : StatusRecord) (s : State) : (State.queueRecord r s).pool = s.pool := rfl
@[simp] theorem State.queueRecord_tu (r : StatusRecord) (s : State) : (State.queueRecord r s).tu = s.tu := rfl
@[simp] theorem State.queueRecord_fu (r : StatusRecord) (s : State) : (State.queueRecord r s).fu = s.fu := rfl
@[simp] theorem State.queueRecord_su (r : StatusRecord) (s : State) : (State.queueRecord r s).su = s.su := rfl
@[simp] theorem State.queueRecord_guards (r : StatusRecord) (s : State) : (State.queueRecord r s).guards = s.guards := rfl
@[simp] theorem State.queueRecord_faults (r : StatusRecord) (s : State) : (State.queueRecord r s).faults = s.faults := rfl
@[simp] theorem State.queueRecord_counters (r : StatusRecord) (s : State) : (State.queueRecord r s).counters = s.counters := rfl
@[simp] theorem State.queueRecord_sv (r : StatusRecord) (s : State) : (State.queueRecord r s).sv = s.sv := rfl
@[simp] theorem State.queueRecord_sc (r : StatusRecord) (s : State) : (State.queueRecord r s).sc = s.sc := rfl

/-! ## showLed -/

@[simp] theorem State.showLed_now (p : LedPattern) (s : State) : (State.showLed p s).now = s.now := rfl
@[simp] theorem State.showLed_draws (p : LedPattern) (s : State) : (State.showLed p s).draws = s.draws := rfl
@[simp] theorem State.showLed_pending (p : LedPattern) (s : State) : (State.showLed p s).pending = s.pending := rfl
@[simp] theorem State.showLed_mu (p : LedPattern) (s : State) : (State.showLed p s).mu = s.mu := rfl
@[simp] theorem State.showLed_ev (p : LedPattern) (s : State) : (State.showLed p s).ev = s.ev := rfl
@[simp] theorem State.showLed_det (p : LedPattern) (s : State) : (State.showLed p s).det = s.det := rfl
@[simp] theorem State.showLed_nt (p : LedPattern) (s : State) : (State.showLed p s).nt = s.nt := rfl
@[simp] theorem State.showLed_radio (p : LedPattern) (s : State) : (State.showLed p s).radio = s.radio := rfl
@[simp] theorem State.showLed_pool (p : LedPattern) (s : State) : (State.showLed p s).pool = s.pool := rfl
@[simp] theorem State.showLed_tu (p : LedPattern) (s : State) : (State.showLed p s).tu = s.tu := rfl
@[simp] theorem State.showLed_fu (p : LedPattern) (s : State) : (State.showLed p s).fu = s.fu := rfl
@[simp] theorem State.showLed_su (p : LedPattern) (s : State) : (State.showLed p s).su = s.su := rfl
@[simp] theorem State.showLed_guards (p : LedPattern) (s : State) : (State.showLed p s).guards = s.guards := rfl
@[simp] theorem State.showLed_faults (p : LedPattern) (s : State) : (State.showLed p s).faults = s.faults := rfl
@[simp] theorem State.showLed_counters (p : LedPattern) (s : State) : (State.showLed p s).counters = s.counters := rfl
@[simp] theorem State.showLed_sv (p : LedPattern) (s : State) : (State.showLed p s).sv = s.sv := rfl
@[simp] theorem State.showLed_sc (p : LedPattern) (s : State) : (State.showLed p s).sc = s.sc := rfl

/-! ## driveLines -/

@[simp] theorem State.driveLines_now (s : State) : (State.driveLines s).now = s.now := rfl
@[simp] theorem State.driveLines_draws (s : State) : (State.driveLines s).draws = s.draws := rfl
@[simp] theorem State.driveLines_pending (s : State) : (State.driveLines s).pending = s.pending := rfl
@[simp] theorem State.driveLines_mu (s : State) : (State.driveLines s).mu = s.mu := rfl
@[simp] theorem State.driveLines_ev (s : State) : (State.driveLines s).ev = s.ev := rfl
@[simp] theorem State.driveLines_det (s : State) : (State.driveLines s).det = s.det := rfl
@[simp] theorem State.driveLines_nt (s : State) : (State.driveLines s).nt = s.nt := rfl
@[simp] theorem State.driveLines_radio (s : State) : (State.driveLines s).radio = s.radio := rfl
@[simp] theorem State.driveLines_pool (s : State) : (State.driveLines s).pool = s.pool := rfl
@[simp] theorem State.driveLines_tu (s : State) : (State.driveLines s).tu = s.tu := rfl
@[simp] theorem State.driveLines_fu (s : State) : (State.driveLines s).fu = s.fu := rfl
@[simp] theorem State.driveLines_su (s : State) : (State.driveLines s).su = s.su := rfl
@[simp] theorem State.driveLines_guards (s : State) : (State.driveLines s).guards = s.guards := rfl
@[simp] theorem State.driveLines_faults (s : State) : (State.driveLines s).faults = s.faults := rfl
@[simp] theorem State.driveLines_counters (s : State) : (State.driveLines s).counters = s.counters := rfl
@[simp] theorem State.driveLines_sv (s : State) : (State.driveLines s).sv = s.sv := rfl
@[simp] theorem State.driveLines_sc (s : State) : (State.driveLines s).sc = s.sc := rfl

/-! ## takeUp -/

@[simp] theorem State.takeUp_now (s : State) : (State.takeUp s).now = s.now := rfl
@[simp] theorem State.takeUp_draws (s : State) : (State.takeUp s).draws = s.draws := rfl
@[simp] theorem State.takeUp_pending (s : State) : (State.takeUp s).pending = s.pending := rfl
@[simp] theorem State.takeUp_mu (s : State) : (State.takeUp s).mu = s.mu := rfl
@[simp] theorem State.takeUp_ev (s : State) : (State.takeUp s).ev = s.ev := rfl
@[simp] theorem State.takeUp_det (s : State) : (State.takeUp s).det = s.det := rfl
@[simp] theorem State.takeUp_nt (s : State) : (State.takeUp s).nt = s.nt := rfl
@[simp] theorem State.takeUp_pool (s : State) : (State.takeUp s).pool = s.pool := rfl
@[simp] theorem State.takeUp_tu (s : State) : (State.takeUp s).tu = s.tu := rfl
@[simp] theorem State.takeUp_fu (s : State) : (State.takeUp s).fu = s.fu := rfl
@[simp] theorem State.takeUp_su (s : State) : (State.takeUp s).su = s.su := rfl
@[simp] theorem State.takeUp_guards (s : State) : (State.takeUp s).guards = s.guards := rfl
@[simp] theorem State.takeUp_faults (s : State) : (State.takeUp s).faults = s.faults := rfl
@[simp] theorem State.takeUp_counters (s : State) : (State.takeUp s).counters = s.counters := rfl
@[simp] theorem State.takeUp_sv (s : State) : (State.takeUp s).sv = s.sv := rfl
@[simp] theorem State.takeUp_lu (s : State) : (State.takeUp s).lu = s.lu := rfl
@[simp] theorem State.takeUp_sc (s : State) : (State.takeUp s).sc = s.sc := rfl

/-! ## joinWaiters -/

@[simp] theorem State.joinWaiters_now (w : Waiter) (s : State) : (State.joinWaiters w s).now = s.now := rfl
@[simp] theorem State.joinWaiters_draws (w : Waiter) (s : State) : (State.joinWaiters w s).draws = s.draws := rfl
@[simp] theorem State.joinWaiters_pending (w : Waiter) (s : State) : (State.joinWaiters w s).pending = s.pending := rfl
@[simp] theorem State.joinWaiters_mu (w : Waiter) (s : State) : (State.joinWaiters w s).mu = s.mu := rfl
@[simp] theorem State.joinWaiters_ev (w : Waiter) (s : State) : (State.joinWaiters w s).ev = s.ev := rfl
@[simp] theorem State.joinWaiters_det (w : Waiter) (s : State) : (State.joinWaiters w s).det = s.det := rfl
@[simp] theorem State.joinWaiters_nt (w : Waiter) (s : State) : (State.joinWaiters w s).nt = s.nt := rfl
@[simp] theorem State.joinWaiters_radio (w : Waiter) (s : State) : (State.joinWaiters w s).radio = s.radio := rfl
@[simp] theorem State.joinWaiters_pool (w : Waiter) (s : State) : (State.joinWaiters w s).pool = s.pool := rfl
@[simp] theorem State.joinWaiters_tu (w : Waiter) (s : State) : (State.joinWaiters w s).tu = s.tu := rfl
@[simp] theorem State.joinWaiters_su (w : Waiter) (s : State) : (State.joinWaiters w s).su = s.su := rfl
@[simp] theorem State.joinWaiters_guards (w : Waiter) (s : State) : (State.joinWaiters w s).guards = s.guards := rfl
@[simp] theorem State.joinWaiters_faults (w : Waiter) (s : State) : (State.joinWaiters w s).faults = s.faults := rfl
@[simp] theorem State.joinWaiters_counters (w : Waiter) (s : State) : (State.joinWaiters w s).counters = s.counters := rfl
@[simp] theorem State.joinWaiters_sv (w : Waiter) (s : State) : (State.joinWaiters w s).sv = s.sv := rfl
@[simp] theorem State.joinWaiters_lu (w : Waiter) (s : State) : (State.joinWaiters w s).lu = s.lu := rfl
@[simp] theorem State.joinWaiters_sc (w : Waiter) (s : State) : (State.joinWaiters w s).sc = s.sc := rfl

/-! ## dropWaiter -/

@[simp] theorem State.dropWaiter_now (w : Waiter) (s : State) : (State.dropWaiter w s).now = s.now := rfl
@[simp] theorem State.dropWaiter_draws (w : Waiter) (s : State) : (State.dropWaiter w s).draws = s.draws := rfl
@[simp] theorem State.dropWaiter_pending (w : Waiter) (s : State) : (State.dropWaiter w s).pending = s.pending := rfl
@[simp] theorem State.dropWaiter_mu (w : Waiter) (s : State) : (State.dropWaiter w s).mu = s.mu := rfl
@[simp] theorem State.dropWaiter_ev (w : Waiter) (s : State) : (State.dropWaiter w s).ev = s.ev := rfl
@[simp] theorem State.dropWaiter_det (w : Waiter) (s : State) : (State.dropWaiter w s).det = s.det := rfl
@[simp] theorem State.dropWaiter_nt (w : Waiter) (s : State) : (State.dropWaiter w s).nt = s.nt := rfl
@[simp] theorem State.dropWaiter_radio (w : Waiter) (s : State) : (State.dropWaiter w s).radio = s.radio := rfl
@[simp] theorem State.dropWaiter_pool (w : Waiter) (s : State) : (State.dropWaiter w s).pool = s.pool := rfl
@[simp] theorem State.dropWaiter_tu (w : Waiter) (s : State) : (State.dropWaiter w s).tu = s.tu := rfl
@[simp] theorem State.dropWaiter_su (w : Waiter) (s : State) : (State.dropWaiter w s).su = s.su := rfl
@[simp] theorem State.dropWaiter_guards (w : Waiter) (s : State) : (State.dropWaiter w s).guards = s.guards := rfl
@[simp] theorem State.dropWaiter_faults (w : Waiter) (s : State) : (State.dropWaiter w s).faults = s.faults := rfl
@[simp] theorem State.dropWaiter_counters (w : Waiter) (s : State) : (State.dropWaiter w s).counters = s.counters := rfl
@[simp] theorem State.dropWaiter_sv (w : Waiter) (s : State) : (State.dropWaiter w s).sv = s.sv := rfl
@[simp] theorem State.dropWaiter_lu (w : Waiter) (s : State) : (State.dropWaiter w s).lu = s.lu := rfl
@[simp] theorem State.dropWaiter_sc (w : Waiter) (s : State) : (State.dropWaiter w s).sc = s.sc := rfl

/-! ## enterBackoff -/

@[simp] theorem State.enterBackoff_now (s : State) : (State.enterBackoff s).now = s.now := rfl
@[simp] theorem State.enterBackoff_pending (s : State) : (State.enterBackoff s).pending = s.pending := rfl
@[simp] theorem State.enterBackoff_mu (s : State) : (State.enterBackoff s).mu = s.mu := rfl
@[simp] theorem State.enterBackoff_ev (s : State) : (State.enterBackoff s).ev = s.ev := rfl
@[simp] theorem State.enterBackoff_det (s : State) : (State.enterBackoff s).det = s.det := rfl
@[simp] theorem State.enterBackoff_nt (s : State) : (State.enterBackoff s).nt = s.nt := rfl
@[simp] theorem State.enterBackoff_radio (s : State) : (State.enterBackoff s).radio = s.radio := rfl
@[simp] theorem State.enterBackoff_pool (s : State) : (State.enterBackoff s).pool = s.pool := rfl
@[simp] theorem State.enterBackoff_fu (s : State) : (State.enterBackoff s).fu = s.fu := rfl
@[simp] theorem State.enterBackoff_su (s : State) : (State.enterBackoff s).su = s.su := rfl
@[simp] theorem State.enterBackoff_guards (s : State) : (State.enterBackoff s).guards = s.guards := rfl
@[simp] theorem State.enterBackoff_faults (s : State) : (State.enterBackoff s).faults = s.faults := rfl
@[simp] theorem State.enterBackoff_counters (s : State) : (State.enterBackoff s).counters = s.counters := rfl
@[simp] theorem State.enterBackoff_sv (s : State) : (State.enterBackoff s).sv = s.sv := rfl
@[simp] theorem State.enterBackoff_lu (s : State) : (State.enterBackoff s).lu = s.lu := rfl
@[simp] theorem State.enterBackoff_sc (s : State) : (State.enterBackoff s).sc = s.sc := rfl

/-! ## takeEntry -/

@[simp] theorem State.takeEntry_now (e : TxEntry) (s : State) : (State.takeEntry e s).now = s.now := rfl
@[simp] theorem State.takeEntry_pending (e : TxEntry) (s : State) : (State.takeEntry e s).pending = s.pending := rfl
@[simp] theorem State.takeEntry_mu (e : TxEntry) (s : State) : (State.takeEntry e s).mu = s.mu := rfl
@[simp] theorem State.takeEntry_ev (e : TxEntry) (s : State) : (State.takeEntry e s).ev = s.ev := rfl
@[simp] theorem State.takeEntry_det (e : TxEntry) (s : State) : (State.takeEntry e s).det = s.det := rfl
@[simp] theorem State.takeEntry_nt (e : TxEntry) (s : State) : (State.takeEntry e s).nt = s.nt := rfl
@[simp] theorem State.takeEntry_radio (e : TxEntry) (s : State) : (State.takeEntry e s).radio = s.radio := rfl
@[simp] theorem State.takeEntry_fu (e : TxEntry) (s : State) : (State.takeEntry e s).fu = s.fu := rfl
@[simp] theorem State.takeEntry_su (e : TxEntry) (s : State) : (State.takeEntry e s).su = s.su := rfl
@[simp] theorem State.takeEntry_guards (e : TxEntry) (s : State) : (State.takeEntry e s).guards = s.guards := rfl
@[simp] theorem State.takeEntry_faults (e : TxEntry) (s : State) : (State.takeEntry e s).faults = s.faults := rfl
@[simp] theorem State.takeEntry_counters (e : TxEntry) (s : State) : (State.takeEntry e s).counters = s.counters := rfl
@[simp] theorem State.takeEntry_sv (e : TxEntry) (s : State) : (State.takeEntry e s).sv = s.sv := rfl
@[simp] theorem State.takeEntry_lu (e : TxEntry) (s : State) : (State.takeEntry e s).lu = s.lu := rfl
@[simp] theorem State.takeEntry_sc (e : TxEntry) (s : State) : (State.takeEntry e s).sc = s.sc := rfl

/-! ## radioDown -/

@[simp] theorem State.radioDown_now (s : State) : (State.radioDown s).now = s.now := rfl
@[simp] theorem State.radioDown_draws (s : State) : (State.radioDown s).draws = s.draws := rfl
@[simp] theorem State.radioDown_pending (s : State) : (State.radioDown s).pending = s.pending := rfl
@[simp] theorem State.radioDown_mu (s : State) : (State.radioDown s).mu = s.mu := rfl
@[simp] theorem State.radioDown_ev (s : State) : (State.radioDown s).ev = s.ev := rfl
@[simp] theorem State.radioDown_det (s : State) : (State.radioDown s).det = s.det := rfl
@[simp] theorem State.radioDown_nt (s : State) : (State.radioDown s).nt = s.nt := rfl
@[simp] theorem State.radioDown_pool (s : State) : (State.radioDown s).pool = s.pool := rfl
@[simp] theorem State.radioDown_fu (s : State) : (State.radioDown s).fu = s.fu := rfl
@[simp] theorem State.radioDown_su (s : State) : (State.radioDown s).su = s.su := rfl
@[simp] theorem State.radioDown_faults (s : State) : (State.radioDown s).faults = s.faults := rfl
@[simp] theorem State.radioDown_counters (s : State) : (State.radioDown s).counters = s.counters := rfl
@[simp] theorem State.radioDown_sv (s : State) : (State.radioDown s).sv = s.sv := rfl
@[simp] theorem State.radioDown_lu (s : State) : (State.radioDown s).lu = s.lu := rfl
@[simp] theorem State.radioDown_sc (s : State) : (State.radioDown s).sc = s.sc := rfl

/-! ## setDetState -/

@[simp] theorem State.setDetState_now (st : DetState) (s : State) : (State.setDetState st s).now = s.now := rfl
@[simp] theorem State.setDetState_draws (st : DetState) (s : State) : (State.setDetState st s).draws = s.draws := rfl
@[simp] theorem State.setDetState_pending (st : DetState) (s : State) : (State.setDetState st s).pending = s.pending := rfl
@[simp] theorem State.setDetState_mu (st : DetState) (s : State) : (State.setDetState st s).mu = s.mu := rfl
@[simp] theorem State.setDetState_ev (st : DetState) (s : State) : (State.setDetState st s).ev = s.ev := rfl
@[simp] theorem State.setDetState_nt (st : DetState) (s : State) : (State.setDetState st s).nt = s.nt := rfl
@[simp] theorem State.setDetState_radio (st : DetState) (s : State) : (State.setDetState st s).radio = s.radio := rfl
@[simp] theorem State.setDetState_pool (st : DetState) (s : State) : (State.setDetState st s).pool = s.pool := rfl
@[simp] theorem State.setDetState_tu (st : DetState) (s : State) : (State.setDetState st s).tu = s.tu := rfl
@[simp] theorem State.setDetState_fu (st : DetState) (s : State) : (State.setDetState st s).fu = s.fu := rfl
@[simp] theorem State.setDetState_su (st : DetState) (s : State) : (State.setDetState st s).su = s.su := rfl
@[simp] theorem State.setDetState_guards (st : DetState) (s : State) : (State.setDetState st s).guards = s.guards := rfl
@[simp] theorem State.setDetState_faults (st : DetState) (s : State) : (State.setDetState st s).faults = s.faults := rfl
@[simp] theorem State.setDetState_counters (st : DetState) (s : State) : (State.setDetState st s).counters = s.counters := rfl
@[simp] theorem State.setDetState_sv (st : DetState) (s : State) : (State.setDetState st s).sv = s.sv := rfl
@[simp] theorem State.setDetState_lu (st : DetState) (s : State) : (State.setDetState st s).lu = s.lu := rfl
@[simp] theorem State.setDetState_sc (st : DetState) (s : State) : (State.setDetState st s).sc = s.sc := rfl

/-! ## verifyCounts -/

@[simp] theorem State.verifyCounts_now (s : State) : (State.verifyCounts s).now = s.now := by simp only [State.verifyCounts]
@[simp] theorem State.verifyCounts_draws (s : State) : (State.verifyCounts s).draws = s.draws := by simp only [State.verifyCounts]
@[simp] theorem State.verifyCounts_pending (s : State) : (State.verifyCounts s).pending = s.pending := by simp only [State.verifyCounts]
@[simp] theorem State.verifyCounts_mu (s : State) : (State.verifyCounts s).mu = s.mu := by simp only [State.verifyCounts]
@[simp] theorem State.verifyCounts_ev (s : State) : (State.verifyCounts s).ev = s.ev := by simp only [State.verifyCounts]
@[simp] theorem State.verifyCounts_nt (s : State) : (State.verifyCounts s).nt = s.nt := by simp only [State.verifyCounts]
@[simp] theorem State.verifyCounts_radio (s : State) : (State.verifyCounts s).radio = s.radio := by simp only [State.verifyCounts]
@[simp] theorem State.verifyCounts_pool (s : State) : (State.verifyCounts s).pool = s.pool := by simp only [State.verifyCounts]
@[simp] theorem State.verifyCounts_tu (s : State) : (State.verifyCounts s).tu = s.tu := by simp only [State.verifyCounts]
@[simp] theorem State.verifyCounts_fu (s : State) : (State.verifyCounts s).fu = s.fu := by simp only [State.verifyCounts]
@[simp] theorem State.verifyCounts_su (s : State) : (State.verifyCounts s).su = s.su := by simp only [State.verifyCounts]
@[simp] theorem State.verifyCounts_guards (s : State) : (State.verifyCounts s).guards = s.guards := by simp only [State.verifyCounts]
@[simp] theorem State.verifyCounts_faults (s : State) : (State.verifyCounts s).faults = s.faults := by simp only [State.verifyCounts]
@[simp] theorem State.verifyCounts_counters (s : State) : (State.verifyCounts s).counters = s.counters := by simp only [State.verifyCounts]
@[simp] theorem State.verifyCounts_sv (s : State) : (State.verifyCounts s).sv = s.sv := by simp only [State.verifyCounts]
@[simp] theorem State.verifyCounts_lu (s : State) : (State.verifyCounts s).lu = s.lu := by simp only [State.verifyCounts]
@[simp] theorem State.verifyCounts_sc (s : State) : (State.verifyCounts s).sc = s.sc := by simp only [State.verifyCounts]

/-! ## silenceList -/

@[simp] theorem State.silenceList_now (s : State) : (State.silenceList s).now = s.now := rfl
@[simp] theorem State.silenceList_draws (s : State) : (State.silenceList s).draws = s.draws := rfl
@[simp] theorem State.silenceList_pending (s : State) : (State.silenceList s).pending = s.pending := rfl
@[simp] theorem State.silenceList_mu (s : State) : (State.silenceList s).mu = s.mu := rfl
@[simp] theorem State.silenceList_ev (s : State) : (State.silenceList s).ev = s.ev := rfl
@[simp] theorem State.silenceList_det (s : State) : (State.silenceList s).det = s.det := rfl
@[simp] theorem State.silenceList_nt (s : State) : (State.silenceList s).nt = s.nt := rfl
@[simp] theorem State.silenceList_radio (s : State) : (State.silenceList s).radio = s.radio := rfl
@[simp] theorem State.silenceList_pool (s : State) : (State.silenceList s).pool = s.pool := rfl
@[simp] theorem State.silenceList_tu (s : State) : (State.silenceList s).tu = s.tu := rfl
@[simp] theorem State.silenceList_su (s : State) : (State.silenceList s).su = s.su := rfl
@[simp] theorem State.silenceList_guards (s : State) : (State.silenceList s).guards = s.guards := rfl
@[simp] theorem State.silenceList_faults (s : State) : (State.silenceList s).faults = s.faults := rfl
@[simp] theorem State.silenceList_counters (s : State) : (State.silenceList s).counters = s.counters := rfl
@[simp] theorem State.silenceList_sv (s : State) : (State.silenceList s).sv = s.sv := rfl
@[simp] theorem State.silenceList_lu (s : State) : (State.silenceList s).lu = s.lu := rfl
@[simp] theorem State.silenceList_sc (s : State) : (State.silenceList s).sc = s.sc := rfl

/-! ## purgePending -/

@[simp] theorem State.purgePending_now (e : BitVec 8) (s : State) : (State.purgePending e s).now = s.now := rfl
@[simp] theorem State.purgePending_draws (e : BitVec 8) (s : State) : (State.purgePending e s).draws = s.draws := rfl
@[simp] theorem State.purgePending_pending (e : BitVec 8) (s : State) : (State.purgePending e s).pending = s.pending := rfl
@[simp] theorem State.purgePending_mu (e : BitVec 8) (s : State) : (State.purgePending e s).mu = s.mu := rfl
@[simp] theorem State.purgePending_ev (e : BitVec 8) (s : State) : (State.purgePending e s).ev = s.ev := rfl
@[simp] theorem State.purgePending_det (e : BitVec 8) (s : State) : (State.purgePending e s).det = s.det := rfl
@[simp] theorem State.purgePending_nt (e : BitVec 8) (s : State) : (State.purgePending e s).nt = s.nt := rfl
@[simp] theorem State.purgePending_radio (e : BitVec 8) (s : State) : (State.purgePending e s).radio = s.radio := rfl
@[simp] theorem State.purgePending_pool (e : BitVec 8) (s : State) : (State.purgePending e s).pool = s.pool := rfl
@[simp] theorem State.purgePending_tu (e : BitVec 8) (s : State) : (State.purgePending e s).tu = s.tu := rfl
@[simp] theorem State.purgePending_su (e : BitVec 8) (s : State) : (State.purgePending e s).su = s.su := rfl
@[simp] theorem State.purgePending_guards (e : BitVec 8) (s : State) : (State.purgePending e s).guards = s.guards := rfl
@[simp] theorem State.purgePending_faults (e : BitVec 8) (s : State) : (State.purgePending e s).faults = s.faults := rfl
@[simp] theorem State.purgePending_counters (e : BitVec 8) (s : State) : (State.purgePending e s).counters = s.counters := rfl
@[simp] theorem State.purgePending_sv (e : BitVec 8) (s : State) : (State.purgePending e s).sv = s.sv := rfl
@[simp] theorem State.purgePending_lu (e : BitVec 8) (s : State) : (State.purgePending e s).lu = s.lu := rfl
@[simp] theorem State.purgePending_sc (e : BitVec 8) (s : State) : (State.purgePending e s).sc = s.sc := rfl

/-! ## endRelayWait -/

@[simp] theorem State.endRelayWait_now (b : Fin 8) (s : State) : (State.endRelayWait b s).now = s.now := rfl
@[simp] theorem State.endRelayWait_draws (b : Fin 8) (s : State) : (State.endRelayWait b s).draws = s.draws := rfl
@[simp] theorem State.endRelayWait_pending (b : Fin 8) (s : State) : (State.endRelayWait b s).pending = s.pending := rfl
@[simp] theorem State.endRelayWait_mu (b : Fin 8) (s : State) : (State.endRelayWait b s).mu = s.mu := rfl
@[simp] theorem State.endRelayWait_ev (b : Fin 8) (s : State) : (State.endRelayWait b s).ev = s.ev := rfl
@[simp] theorem State.endRelayWait_det (b : Fin 8) (s : State) : (State.endRelayWait b s).det = s.det := rfl
@[simp] theorem State.endRelayWait_nt (b : Fin 8) (s : State) : (State.endRelayWait b s).nt = s.nt := rfl
@[simp] theorem State.endRelayWait_radio (b : Fin 8) (s : State) : (State.endRelayWait b s).radio = s.radio := rfl
@[simp] theorem State.endRelayWait_pool (b : Fin 8) (s : State) : (State.endRelayWait b s).pool = s.pool := rfl
@[simp] theorem State.endRelayWait_tu (b : Fin 8) (s : State) : (State.endRelayWait b s).tu = s.tu := rfl
@[simp] theorem State.endRelayWait_su (b : Fin 8) (s : State) : (State.endRelayWait b s).su = s.su := rfl
@[simp] theorem State.endRelayWait_guards (b : Fin 8) (s : State) : (State.endRelayWait b s).guards = s.guards := rfl
@[simp] theorem State.endRelayWait_faults (b : Fin 8) (s : State) : (State.endRelayWait b s).faults = s.faults := rfl
@[simp] theorem State.endRelayWait_counters (b : Fin 8) (s : State) : (State.endRelayWait b s).counters = s.counters := rfl
@[simp] theorem State.endRelayWait_sv (b : Fin 8) (s : State) : (State.endRelayWait b s).sv = s.sv := rfl
@[simp] theorem State.endRelayWait_lu (b : Fin 8) (s : State) : (State.endRelayWait b s).lu = s.lu := rfl
@[simp] theorem State.endRelayWait_sc (b : Fin 8) (s : State) : (State.endRelayWait b s).sc = s.sc := rfl

/-! ## releaseRx -/

@[simp] theorem State.releaseRx_now (s : State) : (State.releaseRx s).now = s.now := rfl
@[simp] theorem State.releaseRx_draws (s : State) : (State.releaseRx s).draws = s.draws := rfl
@[simp] theorem State.releaseRx_pending (s : State) : (State.releaseRx s).pending = s.pending := rfl
@[simp] theorem State.releaseRx_mu (s : State) : (State.releaseRx s).mu = s.mu := rfl
@[simp] theorem State.releaseRx_ev (s : State) : (State.releaseRx s).ev = s.ev := rfl
@[simp] theorem State.releaseRx_det (s : State) : (State.releaseRx s).det = s.det := rfl
@[simp] theorem State.releaseRx_nt (s : State) : (State.releaseRx s).nt = s.nt := rfl
@[simp] theorem State.releaseRx_pool (s : State) : (State.releaseRx s).pool = s.pool := rfl
@[simp] theorem State.releaseRx_tu (s : State) : (State.releaseRx s).tu = s.tu := rfl
@[simp] theorem State.releaseRx_fu (s : State) : (State.releaseRx s).fu = s.fu := rfl
@[simp] theorem State.releaseRx_su (s : State) : (State.releaseRx s).su = s.su := rfl
@[simp] theorem State.releaseRx_guards (s : State) : (State.releaseRx s).guards = s.guards := rfl
@[simp] theorem State.releaseRx_faults (s : State) : (State.releaseRx s).faults = s.faults := rfl
@[simp] theorem State.releaseRx_counters (s : State) : (State.releaseRx s).counters = s.counters := rfl
@[simp] theorem State.releaseRx_sv (s : State) : (State.releaseRx s).sv = s.sv := rfl
@[simp] theorem State.releaseRx_lu (s : State) : (State.releaseRx s).lu = s.lu := rfl
@[simp] theorem State.releaseRx_sc (s : State) : (State.releaseRx s).sc = s.sc := rfl

/-! ## enterReceiving -/

@[simp] theorem State.enterReceiving_now (s : State) : (State.enterReceiving s).now = s.now := rfl
@[simp] theorem State.enterReceiving_draws (s : State) : (State.enterReceiving s).draws = s.draws := rfl
@[simp] theorem State.enterReceiving_pending (s : State) : (State.enterReceiving s).pending = s.pending := rfl
@[simp] theorem State.enterReceiving_mu (s : State) : (State.enterReceiving s).mu = s.mu := rfl
@[simp] theorem State.enterReceiving_ev (s : State) : (State.enterReceiving s).ev = s.ev := rfl
@[simp] theorem State.enterReceiving_det (s : State) : (State.enterReceiving s).det = s.det := rfl
@[simp] theorem State.enterReceiving_nt (s : State) : (State.enterReceiving s).nt = s.nt := rfl
@[simp] theorem State.enterReceiving_pool (s : State) : (State.enterReceiving s).pool = s.pool := rfl
@[simp] theorem State.enterReceiving_tu (s : State) : (State.enterReceiving s).tu = s.tu := rfl
@[simp] theorem State.enterReceiving_fu (s : State) : (State.enterReceiving s).fu = s.fu := rfl
@[simp] theorem State.enterReceiving_su (s : State) : (State.enterReceiving s).su = s.su := rfl
@[simp] theorem State.enterReceiving_guards (s : State) : (State.enterReceiving s).guards = s.guards := rfl
@[simp] theorem State.enterReceiving_faults (s : State) : (State.enterReceiving s).faults = s.faults := rfl
@[simp] theorem State.enterReceiving_counters (s : State) : (State.enterReceiving s).counters = s.counters := rfl
@[simp] theorem State.enterReceiving_sv (s : State) : (State.enterReceiving s).sv = s.sv := rfl
@[simp] theorem State.enterReceiving_lu (s : State) : (State.enterReceiving s).lu = s.lu := rfl
@[simp] theorem State.enterReceiving_sc (s : State) : (State.enterReceiving s).sc = s.sc := rfl

/-! ## grant -/

@[simp] theorem State.grant_now (s : State) : (State.grant s).now = s.now := rfl
@[simp] theorem State.grant_draws (s : State) : (State.grant s).draws = s.draws := rfl
@[simp] theorem State.grant_pending (s : State) : (State.grant s).pending = s.pending := rfl
@[simp] theorem State.grant_mu (s : State) : (State.grant s).mu = s.mu := rfl
@[simp] theorem State.grant_ev (s : State) : (State.grant s).ev = s.ev := rfl
@[simp] theorem State.grant_det (s : State) : (State.grant s).det = s.det := rfl
@[simp] theorem State.grant_nt (s : State) : (State.grant s).nt = s.nt := rfl
@[simp] theorem State.grant_pool (s : State) : (State.grant s).pool = s.pool := rfl
@[simp] theorem State.grant_fu (s : State) : (State.grant s).fu = s.fu := rfl
@[simp] theorem State.grant_su (s : State) : (State.grant s).su = s.su := rfl
@[simp] theorem State.grant_faults (s : State) : (State.grant s).faults = s.faults := rfl
@[simp] theorem State.grant_counters (s : State) : (State.grant s).counters = s.counters := rfl
@[simp] theorem State.grant_sv (s : State) : (State.grant s).sv = s.sv := rfl
@[simp] theorem State.grant_lu (s : State) : (State.grant s).lu = s.lu := rfl
@[simp] theorem State.grant_sc (s : State) : (State.grant s).sc = s.sc := rfl

/-! ## holdRequest -/

@[simp] theorem State.holdRequest_now (s : State) : (State.holdRequest s).now = s.now := rfl
@[simp] theorem State.holdRequest_draws (s : State) : (State.holdRequest s).draws = s.draws := rfl
@[simp] theorem State.holdRequest_pending (s : State) : (State.holdRequest s).pending = s.pending := rfl
@[simp] theorem State.holdRequest_mu (s : State) : (State.holdRequest s).mu = s.mu := rfl
@[simp] theorem State.holdRequest_ev (s : State) : (State.holdRequest s).ev = s.ev := rfl
@[simp] theorem State.holdRequest_det (s : State) : (State.holdRequest s).det = s.det := rfl
@[simp] theorem State.holdRequest_nt (s : State) : (State.holdRequest s).nt = s.nt := rfl
@[simp] theorem State.holdRequest_radio (s : State) : (State.holdRequest s).radio = s.radio := rfl
@[simp] theorem State.holdRequest_pool (s : State) : (State.holdRequest s).pool = s.pool := rfl
@[simp] theorem State.holdRequest_fu (s : State) : (State.holdRequest s).fu = s.fu := rfl
@[simp] theorem State.holdRequest_su (s : State) : (State.holdRequest s).su = s.su := rfl
@[simp] theorem State.holdRequest_guards (s : State) : (State.holdRequest s).guards = s.guards := rfl
@[simp] theorem State.holdRequest_faults (s : State) : (State.holdRequest s).faults = s.faults := rfl
@[simp] theorem State.holdRequest_counters (s : State) : (State.holdRequest s).counters = s.counters := rfl
@[simp] theorem State.holdRequest_sv (s : State) : (State.holdRequest s).sv = s.sv := rfl
@[simp] theorem State.holdRequest_lu (s : State) : (State.holdRequest s).lu = s.lu := rfl
@[simp] theorem State.holdRequest_sc (s : State) : (State.holdRequest s).sc = s.sc := rfl

/-! ## delimiter -/

@[simp] theorem State.delimiter_now (level : Int) (s : State) : (State.delimiter level s).now = s.now := rfl
@[simp] theorem State.delimiter_draws (level : Int) (s : State) : (State.delimiter level s).draws = s.draws := rfl
@[simp] theorem State.delimiter_pending (level : Int) (s : State) : (State.delimiter level s).pending = s.pending := rfl
@[simp] theorem State.delimiter_mu (level : Int) (s : State) : (State.delimiter level s).mu = s.mu := rfl
@[simp] theorem State.delimiter_ev (level : Int) (s : State) : (State.delimiter level s).ev = s.ev := rfl
@[simp] theorem State.delimiter_det (level : Int) (s : State) : (State.delimiter level s).det = s.det := rfl
@[simp] theorem State.delimiter_nt (level : Int) (s : State) : (State.delimiter level s).nt = s.nt := rfl
@[simp] theorem State.delimiter_pool (level : Int) (s : State) : (State.delimiter level s).pool = s.pool := rfl
@[simp] theorem State.delimiter_tu (level : Int) (s : State) : (State.delimiter level s).tu = s.tu := rfl
@[simp] theorem State.delimiter_fu (level : Int) (s : State) : (State.delimiter level s).fu = s.fu := rfl
@[simp] theorem State.delimiter_su (level : Int) (s : State) : (State.delimiter level s).su = s.su := rfl
@[simp] theorem State.delimiter_faults (level : Int) (s : State) : (State.delimiter level s).faults = s.faults := rfl
@[simp] theorem State.delimiter_counters (level : Int) (s : State) : (State.delimiter level s).counters = s.counters := rfl
@[simp] theorem State.delimiter_sv (level : Int) (s : State) : (State.delimiter level s).sv = s.sv := rfl
@[simp] theorem State.delimiter_lu (level : Int) (s : State) : (State.delimiter level s).lu = s.lu := rfl
@[simp] theorem State.delimiter_sc (level : Int) (s : State) : (State.delimiter level s).sc = s.sc := rfl

/-! ## setReception -/

@[simp] theorem State.setReception_now (r : Reception) (s : State) : (State.setReception r s).now = s.now := rfl
@[simp] theorem State.setReception_draws (r : Reception) (s : State) : (State.setReception r s).draws = s.draws := rfl
@[simp] theorem State.setReception_pending (r : Reception) (s : State) : (State.setReception r s).pending = s.pending := rfl
@[simp] theorem State.setReception_mu (r : Reception) (s : State) : (State.setReception r s).mu = s.mu := rfl
@[simp] theorem State.setReception_ev (r : Reception) (s : State) : (State.setReception r s).ev = s.ev := rfl
@[simp] theorem State.setReception_det (r : Reception) (s : State) : (State.setReception r s).det = s.det := rfl
@[simp] theorem State.setReception_nt (r : Reception) (s : State) : (State.setReception r s).nt = s.nt := rfl
@[simp] theorem State.setReception_pool (r : Reception) (s : State) : (State.setReception r s).pool = s.pool := rfl
@[simp] theorem State.setReception_tu (r : Reception) (s : State) : (State.setReception r s).tu = s.tu := rfl
@[simp] theorem State.setReception_fu (r : Reception) (s : State) : (State.setReception r s).fu = s.fu := rfl
@[simp] theorem State.setReception_su (r : Reception) (s : State) : (State.setReception r s).su = s.su := rfl
@[simp] theorem State.setReception_guards (r : Reception) (s : State) : (State.setReception r s).guards = s.guards := rfl
@[simp] theorem State.setReception_faults (r : Reception) (s : State) : (State.setReception r s).faults = s.faults := rfl
@[simp] theorem State.setReception_counters (r : Reception) (s : State) : (State.setReception r s).counters = s.counters := rfl
@[simp] theorem State.setReception_sv (r : Reception) (s : State) : (State.setReception r s).sv = s.sv := rfl
@[simp] theorem State.setReception_lu (r : Reception) (s : State) : (State.setReception r s).lu = s.lu := rfl
@[simp] theorem State.setReception_sc (r : Reception) (s : State) : (State.setReception r s).sc = s.sc := rfl

/-! ## discardEnded -/

@[simp] theorem State.discardEnded_now (s : State) : (State.discardEnded s).now = s.now := rfl
@[simp] theorem State.discardEnded_draws (s : State) : (State.discardEnded s).draws = s.draws := rfl
@[simp] theorem State.discardEnded_pending (s : State) : (State.discardEnded s).pending = s.pending := rfl
@[simp] theorem State.discardEnded_mu (s : State) : (State.discardEnded s).mu = s.mu := rfl
@[simp] theorem State.discardEnded_ev (s : State) : (State.discardEnded s).ev = s.ev := rfl
@[simp] theorem State.discardEnded_det (s : State) : (State.discardEnded s).det = s.det := rfl
@[simp] theorem State.discardEnded_nt (s : State) : (State.discardEnded s).nt = s.nt := rfl
@[simp] theorem State.discardEnded_pool (s : State) : (State.discardEnded s).pool = s.pool := rfl
@[simp] theorem State.discardEnded_tu (s : State) : (State.discardEnded s).tu = s.tu := rfl
@[simp] theorem State.discardEnded_fu (s : State) : (State.discardEnded s).fu = s.fu := rfl
@[simp] theorem State.discardEnded_su (s : State) : (State.discardEnded s).su = s.su := rfl
@[simp] theorem State.discardEnded_faults (s : State) : (State.discardEnded s).faults = s.faults := rfl
@[simp] theorem State.discardEnded_counters (s : State) : (State.discardEnded s).counters = s.counters := rfl
@[simp] theorem State.discardEnded_sv (s : State) : (State.discardEnded s).sv = s.sv := rfl
@[simp] theorem State.discardEnded_lu (s : State) : (State.discardEnded s).lu = s.lu := rfl
@[simp] theorem State.discardEnded_sc (s : State) : (State.discardEnded s).sc = s.sc := rfl

/-! ## bodyStart -/

@[simp] theorem State.bodyStart_now (e : TxEntry) (s : State) : (State.bodyStart e s).now = s.now := rfl
@[simp] theorem State.bodyStart_draws (e : TxEntry) (s : State) : (State.bodyStart e s).draws = s.draws := rfl
@[simp] theorem State.bodyStart_pending (e : TxEntry) (s : State) : (State.bodyStart e s).pending = s.pending := rfl
@[simp] theorem State.bodyStart_mu (e : TxEntry) (s : State) : (State.bodyStart e s).mu = s.mu := rfl
@[simp] theorem State.bodyStart_ev (e : TxEntry) (s : State) : (State.bodyStart e s).ev = s.ev := rfl
@[simp] theorem State.bodyStart_det (e : TxEntry) (s : State) : (State.bodyStart e s).det = s.det := rfl
@[simp] theorem State.bodyStart_nt (e : TxEntry) (s : State) : (State.bodyStart e s).nt = s.nt := rfl
@[simp] theorem State.bodyStart_radio (e : TxEntry) (s : State) : (State.bodyStart e s).radio = s.radio := rfl
@[simp] theorem State.bodyStart_fu (e : TxEntry) (s : State) : (State.bodyStart e s).fu = s.fu := rfl
@[simp] theorem State.bodyStart_su (e : TxEntry) (s : State) : (State.bodyStart e s).su = s.su := rfl
@[simp] theorem State.bodyStart_faults (e : TxEntry) (s : State) : (State.bodyStart e s).faults = s.faults := rfl
@[simp] theorem State.bodyStart_counters (e : TxEntry) (s : State) : (State.bodyStart e s).counters = s.counters := rfl
@[simp] theorem State.bodyStart_sv (e : TxEntry) (s : State) : (State.bodyStart e s).sv = s.sv := rfl
@[simp] theorem State.bodyStart_lu (e : TxEntry) (s : State) : (State.bodyStart e s).lu = s.lu := rfl
@[simp] theorem State.bodyStart_sc (e : TxEntry) (s : State) : (State.bodyStart e s).sc = s.sc := rfl

/-! ## latch -/

@[simp] theorem State.latch_now (set : SampleSet) (s : State) : (State.latch set s).now = s.now := rfl
@[simp] theorem State.latch_draws (set : SampleSet) (s : State) : (State.latch set s).draws = s.draws := rfl
@[simp] theorem State.latch_pending (set : SampleSet) (s : State) : (State.latch set s).pending = s.pending := rfl
@[simp] theorem State.latch_ev (set : SampleSet) (s : State) : (State.latch set s).ev = s.ev := rfl
@[simp] theorem State.latch_det (set : SampleSet) (s : State) : (State.latch set s).det = s.det := rfl
@[simp] theorem State.latch_nt (set : SampleSet) (s : State) : (State.latch set s).nt = s.nt := rfl
@[simp] theorem State.latch_radio (set : SampleSet) (s : State) : (State.latch set s).radio = s.radio := rfl
@[simp] theorem State.latch_pool (set : SampleSet) (s : State) : (State.latch set s).pool = s.pool := rfl
@[simp] theorem State.latch_tu (set : SampleSet) (s : State) : (State.latch set s).tu = s.tu := rfl
@[simp] theorem State.latch_fu (set : SampleSet) (s : State) : (State.latch set s).fu = s.fu := rfl
@[simp] theorem State.latch_su (set : SampleSet) (s : State) : (State.latch set s).su = s.su := rfl
@[simp] theorem State.latch_faults (set : SampleSet) (s : State) : (State.latch set s).faults = s.faults := rfl
@[simp] theorem State.latch_counters (set : SampleSet) (s : State) : (State.latch set s).counters = s.counters := rfl
@[simp] theorem State.latch_sv (set : SampleSet) (s : State) : (State.latch set s).sv = s.sv := rfl
@[simp] theorem State.latch_lu (set : SampleSet) (s : State) : (State.latch set s).lu = s.lu := rfl
@[simp] theorem State.latch_sc (set : SampleSet) (s : State) : (State.latch set s).sc = s.sc := rfl

/-! ## beginRead -/

@[simp] theorem State.beginRead_now (number : Nat) (purpose : ReadPurpose) (s : State) : (State.beginRead number purpose s).now = s.now := rfl
@[simp] theorem State.beginRead_draws (number : Nat) (purpose : ReadPurpose) (s : State) : (State.beginRead number purpose s).draws = s.draws := rfl
@[simp] theorem State.beginRead_pending (number : Nat) (purpose : ReadPurpose) (s : State) : (State.beginRead number purpose s).pending = s.pending := rfl
@[simp] theorem State.beginRead_mu (number : Nat) (purpose : ReadPurpose) (s : State) : (State.beginRead number purpose s).mu = s.mu := rfl
@[simp] theorem State.beginRead_ev (number : Nat) (purpose : ReadPurpose) (s : State) : (State.beginRead number purpose s).ev = s.ev := rfl
@[simp] theorem State.beginRead_det (number : Nat) (purpose : ReadPurpose) (s : State) : (State.beginRead number purpose s).det = s.det := rfl
@[simp] theorem State.beginRead_nt (number : Nat) (purpose : ReadPurpose) (s : State) : (State.beginRead number purpose s).nt = s.nt := rfl
@[simp] theorem State.beginRead_radio (number : Nat) (purpose : ReadPurpose) (s : State) : (State.beginRead number purpose s).radio = s.radio := rfl
@[simp] theorem State.beginRead_pool (number : Nat) (purpose : ReadPurpose) (s : State) : (State.beginRead number purpose s).pool = s.pool := rfl
@[simp] theorem State.beginRead_tu (number : Nat) (purpose : ReadPurpose) (s : State) : (State.beginRead number purpose s).tu = s.tu := rfl
@[simp] theorem State.beginRead_fu (number : Nat) (purpose : ReadPurpose) (s : State) : (State.beginRead number purpose s).fu = s.fu := rfl
@[simp] theorem State.beginRead_su (number : Nat) (purpose : ReadPurpose) (s : State) : (State.beginRead number purpose s).su = s.su := rfl
@[simp] theorem State.beginRead_faults (number : Nat) (purpose : ReadPurpose) (s : State) : (State.beginRead number purpose s).faults = s.faults := rfl
@[simp] theorem State.beginRead_counters (number : Nat) (purpose : ReadPurpose) (s : State) : (State.beginRead number purpose s).counters = s.counters := rfl
@[simp] theorem State.beginRead_sv (number : Nat) (purpose : ReadPurpose) (s : State) : (State.beginRead number purpose s).sv = s.sv := rfl
@[simp] theorem State.beginRead_lu (number : Nat) (purpose : ReadPurpose) (s : State) : (State.beginRead number purpose s).lu = s.lu := rfl

/-! ## applyRecord -/

@[simp] theorem State.applyRecord_now (c : ConfigRecord) (bytes : List Byte) (s : State) : (State.applyRecord c bytes s).now = s.now := rfl
@[simp] theorem State.applyRecord_draws (c : ConfigRecord) (bytes : List Byte) (s : State) : (State.applyRecord c bytes s).draws = s.draws := rfl
@[simp] theorem State.applyRecord_pending (c : ConfigRecord) (bytes : List Byte) (s : State) : (State.applyRecord c bytes s).pending = s.pending := rfl
@[simp] theorem State.applyRecord_mu (c : ConfigRecord) (bytes : List Byte) (s : State) : (State.applyRecord c bytes s).mu = s.mu := rfl
@[simp] theorem State.applyRecord_det (c : ConfigRecord) (bytes : List Byte) (s : State) : (State.applyRecord c bytes s).det = s.det := rfl
@[simp] theorem State.applyRecord_nt (c : ConfigRecord) (bytes : List Byte) (s : State) : (State.applyRecord c bytes s).nt = s.nt := rfl
@[simp] theorem State.applyRecord_radio (c : ConfigRecord) (bytes : List Byte) (s : State) : (State.applyRecord c bytes s).radio = s.radio := rfl
@[simp] theorem State.applyRecord_pool (c : ConfigRecord) (bytes : List Byte) (s : State) : (State.applyRecord c bytes s).pool = s.pool := rfl
@[simp] theorem State.applyRecord_tu (c : ConfigRecord) (bytes : List Byte) (s : State) : (State.applyRecord c bytes s).tu = s.tu := rfl
@[simp] theorem State.applyRecord_su (c : ConfigRecord) (bytes : List Byte) (s : State) : (State.applyRecord c bytes s).su = s.su := rfl
@[simp] theorem State.applyRecord_faults (c : ConfigRecord) (bytes : List Byte) (s : State) : (State.applyRecord c bytes s).faults = s.faults := rfl
@[simp] theorem State.applyRecord_counters (c : ConfigRecord) (bytes : List Byte) (s : State) : (State.applyRecord c bytes s).counters = s.counters := rfl
@[simp] theorem State.applyRecord_sv (c : ConfigRecord) (bytes : List Byte) (s : State) : (State.applyRecord c bytes s).sv = s.sv := rfl
@[simp] theorem State.applyRecord_lu (c : ConfigRecord) (bytes : List Byte) (s : State) : (State.applyRecord c bytes s).lu = s.lu := rfl

/-! ## advance -/

@[simp] theorem State.advance_now (s : State) : (State.advance s).now = s.now := rfl
@[simp] theorem State.advance_draws (s : State) : (State.advance s).draws = s.draws := rfl
@[simp] theorem State.advance_pending (s : State) : (State.advance s).pending = s.pending := rfl
@[simp] theorem State.advance_mu (s : State) : (State.advance s).mu = s.mu := rfl
@[simp] theorem State.advance_ev (s : State) : (State.advance s).ev = s.ev := rfl
@[simp] theorem State.advance_det (s : State) : (State.advance s).det = s.det := rfl
@[simp] theorem State.advance_nt (s : State) : (State.advance s).nt = s.nt := rfl
@[simp] theorem State.advance_radio (s : State) : (State.advance s).radio = s.radio := rfl
@[simp] theorem State.advance_pool (s : State) : (State.advance s).pool = s.pool := rfl
@[simp] theorem State.advance_tu (s : State) : (State.advance s).tu = s.tu := rfl
@[simp] theorem State.advance_fu (s : State) : (State.advance s).fu = s.fu := rfl
@[simp] theorem State.advance_guards (s : State) : (State.advance s).guards = s.guards := rfl
@[simp] theorem State.advance_faults (s : State) : (State.advance s).faults = s.faults := rfl
@[simp] theorem State.advance_counters (s : State) : (State.advance s).counters = s.counters := rfl
@[simp] theorem State.advance_sv (s : State) : (State.advance s).sv = s.sv := rfl
@[simp] theorem State.advance_lu (s : State) : (State.advance s).lu = s.lu := rfl
@[simp] theorem State.advance_sc (s : State) : (State.advance s).sc = s.sc := rfl

/-! ## holdWork -/

@[simp] theorem State.holdWork_now (w : HeldWork) (s : State) : (State.holdWork w s).now = s.now := rfl
@[simp] theorem State.holdWork_draws (w : HeldWork) (s : State) : (State.holdWork w s).draws = s.draws := rfl
@[simp] theorem State.holdWork_pending (w : HeldWork) (s : State) : (State.holdWork w s).pending = s.pending := rfl
@[simp] theorem State.holdWork_mu (w : HeldWork) (s : State) : (State.holdWork w s).mu = s.mu := rfl
@[simp] theorem State.holdWork_ev (w : HeldWork) (s : State) : (State.holdWork w s).ev = s.ev := rfl
@[simp] theorem State.holdWork_det (w : HeldWork) (s : State) : (State.holdWork w s).det = s.det := rfl
@[simp] theorem State.holdWork_nt (w : HeldWork) (s : State) : (State.holdWork w s).nt = s.nt := rfl
@[simp] theorem State.holdWork_radio (w : HeldWork) (s : State) : (State.holdWork w s).radio = s.radio := rfl
@[simp] theorem State.holdWork_pool (w : HeldWork) (s : State) : (State.holdWork w s).pool = s.pool := rfl
@[simp] theorem State.holdWork_tu (w : HeldWork) (s : State) : (State.holdWork w s).tu = s.tu := rfl
@[simp] theorem State.holdWork_fu (w : HeldWork) (s : State) : (State.holdWork w s).fu = s.fu := rfl
@[simp] theorem State.holdWork_guards (w : HeldWork) (s : State) : (State.holdWork w s).guards = s.guards := rfl
@[simp] theorem State.holdWork_faults (w : HeldWork) (s : State) : (State.holdWork w s).faults = s.faults := rfl
@[simp] theorem State.holdWork_counters (w : HeldWork) (s : State) : (State.holdWork w s).counters = s.counters := rfl
@[simp] theorem State.holdWork_sv (w : HeldWork) (s : State) : (State.holdWork w s).sv = s.sv := rfl
@[simp] theorem State.holdWork_lu (w : HeldWork) (s : State) : (State.holdWork w s).lu = s.lu := rfl
@[simp] theorem State.holdWork_sc (w : HeldWork) (s : State) : (State.holdWork w s).sc = s.sc := rfl

/-! ## setInput -/

@[simp] theorem State.setInput_now (line : InputLine) (i : Input) (s : State) : (State.setInput line i s).now = s.now := rfl
@[simp] theorem State.setInput_draws (line : InputLine) (i : Input) (s : State) : (State.setInput line i s).draws = s.draws := rfl
@[simp] theorem State.setInput_pending (line : InputLine) (i : Input) (s : State) : (State.setInput line i s).pending = s.pending := rfl
@[simp] theorem State.setInput_mu (line : InputLine) (i : Input) (s : State) : (State.setInput line i s).mu = s.mu := rfl
@[simp] theorem State.setInput_ev (line : InputLine) (i : Input) (s : State) : (State.setInput line i s).ev = s.ev := rfl
@[simp] theorem State.setInput_det (line : InputLine) (i : Input) (s : State) : (State.setInput line i s).det = s.det := rfl
@[simp] theorem State.setInput_nt (line : InputLine) (i : Input) (s : State) : (State.setInput line i s).nt = s.nt := rfl
@[simp] theorem State.setInput_radio (line : InputLine) (i : Input) (s : State) : (State.setInput line i s).radio = s.radio := rfl
@[simp] theorem State.setInput_pool (line : InputLine) (i : Input) (s : State) : (State.setInput line i s).pool = s.pool := rfl
@[simp] theorem State.setInput_tu (line : InputLine) (i : Input) (s : State) : (State.setInput line i s).tu = s.tu := rfl
@[simp] theorem State.setInput_fu (line : InputLine) (i : Input) (s : State) : (State.setInput line i s).fu = s.fu := rfl
@[simp] theorem State.setInput_su (line : InputLine) (i : Input) (s : State) : (State.setInput line i s).su = s.su := rfl
@[simp] theorem State.setInput_guards (line : InputLine) (i : Input) (s : State) : (State.setInput line i s).guards = s.guards := rfl
@[simp] theorem State.setInput_faults (line : InputLine) (i : Input) (s : State) : (State.setInput line i s).faults = s.faults := rfl
@[simp] theorem State.setInput_counters (line : InputLine) (i : Input) (s : State) : (State.setInput line i s).counters = s.counters := rfl
@[simp] theorem State.setInput_sv (line : InputLine) (i : Input) (s : State) : (State.setInput line i s).sv = s.sv := rfl
@[simp] theorem State.setInput_sc (line : InputLine) (i : Input) (s : State) : (State.setInput line i s).sc = s.sc := rfl

/-! ## withPending -/

@[simp] theorem State.withPending_now (s : State) (q : List Instr) : (s.withPending q).now = s.now := rfl
@[simp] theorem State.withPending_draws (s : State) (q : List Instr) : (s.withPending q).draws = s.draws := rfl
@[simp] theorem State.withPending_mu (s : State) (q : List Instr) : (s.withPending q).mu = s.mu := rfl
@[simp] theorem State.withPending_ev (s : State) (q : List Instr) : (s.withPending q).ev = s.ev := rfl
@[simp] theorem State.withPending_det (s : State) (q : List Instr) : (s.withPending q).det = s.det := rfl
@[simp] theorem State.withPending_nt (s : State) (q : List Instr) : (s.withPending q).nt = s.nt := rfl
@[simp] theorem State.withPending_radio (s : State) (q : List Instr) : (s.withPending q).radio = s.radio := rfl
@[simp] theorem State.withPending_pool (s : State) (q : List Instr) : (s.withPending q).pool = s.pool := rfl
@[simp] theorem State.withPending_tu (s : State) (q : List Instr) : (s.withPending q).tu = s.tu := rfl
@[simp] theorem State.withPending_fu (s : State) (q : List Instr) : (s.withPending q).fu = s.fu := rfl
@[simp] theorem State.withPending_su (s : State) (q : List Instr) : (s.withPending q).su = s.su := rfl
@[simp] theorem State.withPending_guards (s : State) (q : List Instr) : (s.withPending q).guards = s.guards := rfl
@[simp] theorem State.withPending_faults (s : State) (q : List Instr) : (s.withPending q).faults = s.faults := rfl
@[simp] theorem State.withPending_counters (s : State) (q : List Instr) : (s.withPending q).counters = s.counters := rfl
@[simp] theorem State.withPending_sv (s : State) (q : List Instr) : (s.withPending q).sv = s.sv := rfl
@[simp] theorem State.withPending_lu (s : State) (q : List Instr) : (s.withPending q).lu = s.lu := rfl
@[simp] theorem State.withPending_sc (s : State) (q : List Instr) : (s.withPending q).sc = s.sc := rfl

/-! ## What the updates write -/

@[simp] theorem State.elapse_now (dt : Us) (s : State) : (State.elapse dt s).now = s.now + dt := rfl
@[simp] theorem State.drawn_draws (s : State) : (State.drawn s).draws = s.draws + 1 := rfl
@[simp] theorem State.withPending_pending (s : State) (q : List Instr) : (s.withPending q).pending = q := rfl
@[simp] theorem State.startGuard_guards (n : GuardName) (d : Us) (s : State) :
    (State.startGuard n d s).guards = s.guards.put n (some (s.now + d)) := rfl
@[simp] theorem State.stopGuard_guards (n : GuardName) (s : State) :
    (State.stopGuard n s).guards = s.guards.put n none := rfl

/-- A guard set reads back as it was set, and every other guard as it was. -/
theorem Guards.get_put (g : Guards) (n m : GuardName) (t : Timer) :
    (g.put n t).get m = if m = n then t else g.get m := by
  cases n <;> cases m <;> rfl

/-- A buffer replaced reads back as it was set, and every other buffer as it was. -/
theorem Pool.get_put (p : Pool) (b c : Fin 8) (x : Buffer) : (p.put b x).get c = if c = b then x else p.get c := by
  simp only [Pool.put, Pool.get]
  by_cases h : c = b
  · subst h; simp
  · rw [if_neg h, Vector.getElem_set_ne]
    exact fun e => h (Fin.ext e.symm)

@[simp] theorem Pool.put_busy (p : Pool) (b : Fin 8) (x : Buffer) : (p.put b x).busy = p.busy := rfl

/-- The buffers after one is replaced. -/
theorem State.buf_setBuf (b c : Fin 8) (x : Buffer) (s : State) :
    (State.setBuf b x s).buf c = if c = b then x else s.buf c := Pool.get_put s.pool b c x

/-- The buffers after one is moved to another state. -/
theorem State.buf_moveBuf (b c : Fin 8) (st : BufState) (s : State) :
    (State.moveBuf b st s).buf c = if c = b then { s.buf b with state := st } else s.buf c :=
  Pool.get_put s.pool b c _

/-- The counters after one is increased. -/
theorem State.counter_count (c k : Counter) (s : State) :
    (State.count c s).counter k = if k = c then min 65535 (s.counter c + 1) else s.counter k := by
  have hi : ∀ a b : Counter, a.index = b.index → a = b := by
    intro a b; cases a <;> cases b <;> first | intro; rfl | (intro h; exact absurd h (by decide))
  simp only [State.count, State.counter]
  by_cases h : k = c
  · subst h; simp
  · rw [if_neg h, Vector.getElem_set_ne]
    exact fun e => h (hi k c (Fin.ext e.symm))

end Sys2Proof.Machine
end

