-- ==== Sys2Proof/Laws/Transmit.lean ====
section
/-! SUPPORT. What the transmit path can change: one frame relation, and one lemma for each of its operations. -/
namespace Sys2Proof.Machine

/-! ## The frame relation -/

/-- Only the transmit path has changed from `s` to `t`: the pool, the transmit unit, the radio, the assessment guard, the
draws, the counters (within their range), and of the flood unit its sequence counter, seen list (still one entry per
origin), relay waits, waiters and pending items. -/
structure State.TxFrame (s t : State) : Prop where
  now : t.now = s.now
  pending : t.pending = s.pending
  mu : t.mu = s.mu
  ev : t.ev = s.ev
  det : t.det = s.det
  nt : t.nt = s.nt
  su : t.su = s.su
  faults : t.faults = s.faults
  sv : t.sv = s.sv
  lu : t.lu = s.lu
  sc : t.sc = s.sc
  run : t.fu.run = s.fu.run
  epoch : t.fu.epoch = s.fu.epoch
  fires : t.fu.fires = s.fu.fires
  overflow : t.fu.overflow = s.fu.overflow
  refresh : t.fu.profileRefresh = s.fu.profileRefresh
  guards : t.guards = { s.guards with assessment := t.guards.assessment }
  counters : CountersInRange s.counters → CountersInRange t.counters
  seen : (s.fu.seen.map (·.origin)).Nodup → (t.fu.seen.map (·.origin)).Nodup
  levels : s.radio.InRange → t.radio.InRange

/-- A state stands in the frame relation to itself. -/
theorem State.TxFrame.refl (s : State) : s.TxFrame s where
  now := rfl
  pending := rfl
  mu := rfl
  ev := rfl
  det := rfl
  nt := rfl
  su := rfl
  faults := rfl
  sv := rfl
  lu := rfl
  sc := rfl
  run := rfl
  epoch := rfl
  fires := rfl
  overflow := rfl
  refresh := rfl
  guards := rfl
  counters := id
  seen := id
  levels := id

/-- The frame relation composes. -/
theorem State.TxFrame.trans {s t u : State} (h : s.TxFrame t) (k : t.TxFrame u) : s.TxFrame u where
  now := k.now.trans h.now
  pending := k.pending.trans h.pending
  mu := k.mu.trans h.mu
  ev := k.ev.trans h.ev
  det := k.det.trans h.det
  nt := k.nt.trans h.nt
  su := k.su.trans h.su
  faults := k.faults.trans h.faults
  sv := k.sv.trans h.sv
  lu := k.lu.trans h.lu
  sc := k.sc.trans h.sc
  run := k.run.trans h.run
  epoch := k.epoch.trans h.epoch
  fires := k.fires.trans h.fires
  overflow := k.overflow.trans h.overflow
  refresh := k.refresh.trans h.refresh
  guards := by rw [k.guards, h.guards]
  counters := k.counters ∘ h.counters
  seen := k.seen ∘ h.seen
  levels := k.levels ∘ h.levels

/-- The configuration, and what is read from it, does not change along the transmit path. -/
theorem State.TxFrame.cfg {s t : State} (h : s.TxFrame t) : t.cfg = s.cfg := by simp only [State.cfg, h.sc]

theorem State.TxFrame.isPanel {s t : State} (h : s.TxFrame t) : t.isPanel = s.isPanel := by
  simp only [State.isPanel, h.sc]

theorem State.TxFrame.isDetector {s t : State} (h : s.TxFrame t) : t.isDetector = s.isDetector := by
  simp only [State.isDetector, h.sc]

theorem State.TxFrame.ms {s t : State} (h : s.TxFrame t) : t.ms = s.ms := by simp only [State.ms, h.now]

/-- The transmit path alone leaves every other block's state as it was. -/
theorem State.TxFrame.sameDetection {s t : State} (h : s.TxFrame t) : s.SameDetection t :=
  ⟨h.mu, h.ev, h.det, h.nt, h.sc, h.fires, h.overflow, h.epoch⟩

/-! ## Counters and the seen list -/

/-- A counter increased stays within its range (R182). -/
theorem CountersInRange.count {s : State} (c : Counter) (h : CountersInRange s.counters) :
    CountersInRange (State.count c s).counters := by
  intro k
  simp only [State.count]
  by_cases e : c.index.val = k.val
  · simp only [Vector.getElem_set, e, if_true]; omega
  · simp only [Vector.getElem_set, e, if_false]; exact h k

/-- The counters zeroed are within their range. -/
theorem CountersInRange.initial : CountersInRange countersInitial := by
  intro k; simp [countersInitial]

/-- A map that keeps keys keeps one entry per key. -/
theorem nodup_map_of_keys {α β : Type} {key : α → β} {f : α → α} {l : List α} (hf : ∀ a ∈ l, key (f a) = key a)
    (h : (l.map key).Nodup) : ((l.map f).map key).Nodup := by
  rw [List.map_map, show l.map (key ∘ f) = l.map key from List.map_congr_left (fun a ha => hf a ha)]
  exact h

/-- A filter keeps one entry per key. -/
theorem nodup_filter_of_keys {α β : Type} {key : α → β} {l : List α} (p : α → Bool) (h : (l.map key).Nodup) :
    ((l.filter p).map key).Nodup :=
  List.Sublist.nodup (List.Sublist.map key List.filter_sublist) h

/-- An entry of a new key at the end keeps one entry per key. -/
theorem nodup_append_key {α β : Type} {key : α → β} {l : List α} {x : α} (h : (l.map key).Nodup)
    (hx : ∀ a ∈ l, key a ≠ key x) : ((l ++ [x]).map key).Nodup := by
  rw [List.map_append, List.nodup_append]
  refine ⟨h, by simp, ?_⟩
  intro a ha b hb
  obtain ⟨y, hy, rfl⟩ := List.mem_map.1 ha
  obtain ⟨z, hz, rfl⟩ := List.mem_map.1 hb
  obtain rfl : z = x := by simpa using hz
  exact hx y hy

/-- Room made in the seen list keeps one entry per origin (R140). -/
theorem seenRoom_keys {l : List SeenEntry} (h : (l.map (·.origin)).Nodup) : ((seenRoom l).map (·.origin)).Nodup := by
  unfold seenRoom
  split
  · exact h
  · split
    · exact nodup_filter_of_keys _ h
    · exact h

/-- Room made in the seen list adds no entry (R140). -/
theorem seenRoom_subset {l : List SeenEntry} : ∀ e ∈ seenRoom l, e ∈ l := by
  intro e
  unfold seenRoom
  split
  · exact id
  · split
    · exact fun h => (List.mem_filter.1 h).1
    · exact id

/-- Accepting a flood keeps an entry's origin. -/
theorem SeenEntry.accept_origin (ms : Ms) (run seq : BitVec 8) (e : SeenEntry) : (e.accept ms run seq).origin = e.origin := by
  unfold SeenEntry.accept; split
  · rfl
  · split <;> rfl

/-- The seen list keeps one entry per origin (R140, R141). -/
theorem seenTake_keys {ms : Ms} {origin : Addr} {run seq : BitVec 8} {l : List SeenEntry}
    (h : (l.map (·.origin)).Nodup) : ((seenTake ms origin run seq l).2.map (·.origin)).Nodup := by
  have hf := nodup_filter_of_keys (fun e : SeenEntry => !e.expired ms) h
  unfold seenTake
  simp only
  split
  · rename_i hnone
    refine nodup_append_key (seenRoom_keys hf) ?_
    intro a ha he
    have := List.find?_eq_none.1 hnone a (seenRoom_subset a ha)
    simp_all
  · split
    · refine nodup_map_of_keys ?_ hf
      intro a _
      split
      · exact SeenEntry.accept_origin _ _ _ _
      · rfl
    · exact hf

theorem seenPin_keys {o : Addr} {l : List SeenEntry} (h : (l.map (·.origin)).Nodup) :
    ((seenPin o l).map (·.origin)).Nodup := by
  refine nodup_map_of_keys (fun a _ => ?_) h
  split <;> rfl

theorem seenUnpin_keys {o : Addr} {l : List SeenEntry} (h : (l.map (·.origin)).Nodup) :
    ((seenUnpin o l).map (·.origin)).Nodup := by
  refine nodup_map_of_keys (fun a _ => ?_) h
  split <;> rfl

/-! ## One lemma for each operation -/

theorem State.count_frame (c : Counter) (s : State) : s.TxFrame (State.count c s) :=
  { State.TxFrame.refl s with counters := CountersInRange.count c }

theorem State.setBuf_frame (b : Fin 8) (x : Buffer) (s : State) : s.TxFrame (State.setBuf b x s) :=
  { State.TxFrame.refl s with counters := id, seen := id }

theorem State.moveBuf_frame (b : Fin 8) (st : BufState) (s : State) : s.TxFrame (State.moveBuf b st s) :=
  State.setBuf_frame b _ s

theorem State.drawn_frame (s : State) : s.TxFrame (State.drawn s) :=
  { State.TxFrame.refl s with counters := id, seen := id }

/-- The transmit unit's own record replaced. -/
theorem State.tu_frame (tu : Tu) (s : State) : s.TxFrame { s with tu := tu } :=
  { State.TxFrame.refl s with counters := id, seen := id }

/-- The radio's record replaced. -/
theorem State.radio_frame (r : Radio) (s : State) (h : s.radio.InRange → r.InRange) : s.TxFrame { s with radio := r } :=
  { State.TxFrame.refl s with counters := id, seen := id, levels := h }

/-- The pool replaced. -/
theorem State.pool_frame (p : Pool) (s : State) : s.TxFrame { s with pool := p } :=
  { State.TxFrame.refl s with counters := id, seen := id }

/-- The flood unit's transmit items replaced. -/
theorem State.fu_frame (fu : Fu) (s : State) (h1 : fu.run = s.fu.run) (h2 : fu.epoch = s.fu.epoch)
    (h3 : fu.fires = s.fu.fires) (h4 : fu.overflow = s.fu.overflow) (h5 : fu.profileRefresh = s.fu.profileRefresh)
    (h6 : (s.fu.seen.map (·.origin)).Nodup → (fu.seen.map (·.origin)).Nodup) : s.TxFrame { s with fu := fu } :=
  { State.TxFrame.refl s with run := h1, epoch := h2, fires := h3, overflow := h4, refresh := h5, seen := h6 }

theorem State.stopAssessment_frame (s : State) : s.TxFrame (State.stopGuard .assessment s) :=
  { State.TxFrame.refl s with guards := rfl, counters := id, seen := id }

theorem State.startAssessment_frame (d : Us) (s : State) : s.TxFrame (State.startGuard .assessment d s) :=
  { State.TxFrame.refl s with guards := rfl, counters := id, seen := id }

theorem State.takeUp_frame (s : State) : s.TxFrame s.takeUp := State.radio_frame _ s (by exact id)

theorem State.releaseTu_frame (s : State) : s.TxFrame s.releaseTu := by
  unfold State.releaseTu
  split
  · exact (State.radio_frame _ s (by exact id)).trans (State.takeUp_frame _)
  · exact .refl s

theorem State.startWatch_frame (s : State) : s.TxFrame s.startWatch := by
  unfold State.startWatch
  split
  · split
    · exact State.tu_frame _ s
    · split
      · exact State.tu_frame _ s
      · exact .refl s
  · exact .refl s

theorem State.stopWatchOf_frame (e : TxEntry) (s : State) : s.TxFrame (s.stopWatchOf e) := by
  unfold State.stopWatchOf
  split
  · exact State.tu_frame _ s
  · exact .refl s

theorem State.enterBackoff_frame (s : State) : s.TxFrame s.enterBackoff :=
  (State.tu_frame _ s).trans (State.drawn_frame _)

theorem State.takeEntry_frame (e : TxEntry) (s : State) : s.TxFrame (s.takeEntry e) :=
  ((State.tu_frame _ s).trans (State.moveBuf_frame _ _ _)).trans (State.enterBackoff_frame _)

theorem State.select_frame (s : State) : s.TxFrame s.select := by
  unfold State.select
  split
  · split
    · exact (State.tu_frame _ s).trans (State.takeEntry_frame _ _)
    · split
      · split
        · exact .refl s
        · exact (State.tu_frame _ s).trans (State.takeEntry_frame _ _)
      · exact .refl s
  · exact .refl s

theorem State.stopOperation_frame (s : State) : s.TxFrame s.stopOperation :=
  ((State.tu_frame _ s).trans (State.stopAssessment_frame _)).trans (State.releaseTu_frame _)

theorem State.returnCurrent_frame (s : State) : s.TxFrame s.returnCurrent := by
  unfold State.returnCurrent
  split
  · exact .refl s
  · dsimp only
    split
    · exact (State.moveBuf_frame _ _ s).trans (State.tu_frame _ _)
    · exact (State.moveBuf_frame _ _ s).trans (State.tu_frame _ _)

theorem State.preempt_frame (s : State) : s.TxFrame s.preempt := by
  unfold State.preempt
  split
  · exact ((State.stopOperation_frame s).trans (State.returnCurrent_frame _)).trans (State.count_frame _ _)
  · exact .refl s

theorem State.accept_frame (b : Fin 8) (mark : OriginMark) (c : FrameClass) (s : State) :
    s.TxFrame (s.accept b mark c) := by
  unfold State.accept
  dsimp only
  split
  · exact ((((State.moveBuf_frame _ _ s).trans (State.tu_frame _ _)).trans (State.preempt_frame _)).trans
      (State.select_frame _)).trans (State.startWatch_frame _)
  · exact ((State.moveBuf_frame _ _ s).trans (State.tu_frame _ _)).trans (State.select_frame _)

theorem State.recordOwn_frame (o : OwnFrame) (s : State) : s.TxFrame (s.recordOwn o) := by
  have base : s.TxFrame { s with fu := { s.fu with
      seqCounter := s.fu.seqCounter + 1
      seen := (seenTake s.ms s.cfg.address s.fu.run s.fu.seqCounter s.fu.seen).2 } } :=
    State.fu_frame _ s rfl rfl rfl rfl rfl seenTake_keys
  have zero : ∀ t : State, t.TxFrame { t with counters := countersInitial } := fun t =>
    { State.TxFrame.refl t with counters := fun _ => CountersInRange.initial, seen := id }
  unfold State.recordOwn
  split
  · exact .refl s
  · dsimp only
    split
    · exact base.trans (zero _)
    · exact base

/-- An origination made changes the transmit path only (R137). -/
theorem State.originateBare_frame {o : OwnFrame} {s t : State} (h : s.originateBare o = some t) : s.TxFrame t := by
  unfold State.originateBare at h
  split at h
  · split at h
    · cases h
      exact ((State.setBuf_frame _ _ s).trans (State.recordOwn_frame _ _)).trans (State.accept_frame _ _ _ _)
    · cases h
  · cases h

theorem State.busyObservation_frame (s : State) : s.TxFrame s.busyObservation := by
  unfold State.busyObservation
  split
  · exact .refl s
  · cases h : s.originateBare .observation with
    | none => exact .refl s
    | some t => exact State.originateBare_frame h

theorem State.recount_frame (s : State) : s.TxFrame s.recount := by
  unfold State.recount
  dsimp only
  split
  · exact (State.pool_frame _ s).trans (State.busyObservation_frame _)
  · exact State.pool_frame _ s

theorem State.originate_frame {o : OwnFrame} {s t : State} (h : s.originate o = some t) : s.TxFrame t := by
  unfold State.originate at h
  cases k : s.originateBare o with
  | none => simp [k] at h
  | some u =>
    simp only [k, Option.map_some, Option.some.injEq] at h
    subst h
    exact (State.originateBare_frame k).trans (State.recount_frame u)

theorem State.requestObservation_frame (s : State) : s.TxFrame s.requestObservation := by
  unfold State.requestObservation
  split
  · exact .refl s
  · cases h : s.originate .observation with
    | none => exact .refl s
    | some t => exact State.originate_frame h

theorem State.joinWaiters_frame (w : Waiter) (s : State) : s.TxFrame (s.joinWaiters w) :=
  State.fu_frame _ s rfl rfl rfl rfl rfl id

theorem State.dropWaiter_frame (w : Waiter) (s : State) : s.TxFrame (s.dropWaiter w) :=
  State.fu_frame _ s rfl rfl rfl rfl rfl id

theorem State.askFire_frame (c : FireCause) (e : Nat) (s : State) : s.TxFrame (s.askFire c e) := by
  unfold State.askFire
  split
  · rename_i h; exact State.originate_frame h
  · split
    · exact .refl s
    · exact State.joinWaiters_frame _ s

theorem State.askSilence_frame (s : State) : s.TxFrame s.askSilence := by
  unfold State.askSilence
  split
  · rename_i h; exact State.originate_frame h
  · split
    · exact .refl s
    · exact State.joinWaiters_frame _ s

theorem State.askReset_frame (s : State) : s.TxFrame s.askReset := by
  unfold State.askReset
  split
  · rename_i h; exact State.originate_frame h
  · exact State.fu_frame _ s rfl rfl rfl rfl rfl id

theorem State.askProfile_frame (p : Profile) (s : State) : s.TxFrame (s.askProfile p) := by
  unfold State.askProfile
  split
  · rename_i h; exact State.originate_frame h
  · exact State.fu_frame _ s rfl rfl rfl rfl rfl id

theorem State.askHealth_frame (s : State) : s.TxFrame s.askHealth := by
  unfold State.askHealth
  split
  · rename_i h; exact State.originate_frame h
  · exact State.fu_frame _ s rfl rfl rfl rfl rfl id

theorem State.dropRelayWait_frame (b : Fin 8) (s : State) : s.TxFrame (s.dropRelayWait b) := by
  unfold State.dropRelayWait
  split
  · exact State.fu_frame _ s rfl rfl rfl rfl rfl seenUnpin_keys
  · exact .refl s

theorem State.serveOne_frame (s : State) (w : Waiter) : s.TxFrame (s.serveOne w) := by
  unfold State.serveOne
  split
  · split
    · exact (State.dropRelayWait_frame _ s).trans (State.accept_frame _ _ _ _)
    · exact .refl s
  all_goals
    split
    · rename_i h; exact (State.originate_frame h).trans (State.dropWaiter_frame _ _)
    · exact .refl s

/-- A fold of steps within the frame stays within it. -/
theorem State.TxFrame.foldl {α : Type} {f : State → α → State} (h : ∀ (s : State) (a : α), s.TxFrame (f s a)) (l : List α) (s : State) :
    s.TxFrame (l.foldl f s) := by
  induction l generalizing s with
  | nil => exact .refl s
  | cons a l ih => exact (h s a).trans (ih _)

theorem State.serveProfile_frame (s : State) : s.TxFrame s.serveProfile := by
  unfold State.serveProfile
  split
  · split
    · rename_i h; exact (State.originate_frame h).trans (State.fu_frame _ _ rfl rfl rfl rfl rfl id)
    · exact .refl s
  · exact .refl s

theorem State.serveHealth_frame (s : State) : s.TxFrame s.serveHealth := by
  unfold State.serveHealth
  split
  · split
    · rename_i h; exact (State.originate_frame h).trans (State.fu_frame _ _ rfl rfl rfl rfl rfl id)
    · exact .refl s
  · exact .refl s

theorem State.serveWaiters_frame (s : State) : s.TxFrame s.serveWaiters :=
  ((State.TxFrame.foldl State.serveOne_frame _ s).trans (State.serveProfile_frame _)).trans (State.serveHealth_frame _)

theorem State.freeBuf_frame (b : Fin 8) (s : State) : s.TxFrame (s.freeBuf b) :=
  (State.setBuf_frame _ _ s).trans (State.recount_frame _)

theorem State.freeAll_frame (bs : List (Fin 8)) (s : State) : s.TxFrame (s.freeAll bs) := by
  unfold State.freeAll
  split
  · exact .refl s
  · exact (State.TxFrame.foldl (fun t b => State.freeBuf_frame b t) _ s).trans (State.serveWaiters_frame _)

end Sys2Proof.Machine
end

