-- ==== Sys2Proof/Laws/Supervision.lean ====
section
/-! SUPPORT. What the fault list and its reporting can change: one frame relation, one lemma for each operation, and the
laws of the list itself. -/
namespace Sys2Proof.Machine

/-! ## Sorting and least elements -/

theorem insertBy_perm {α : Type} (lt : α → α → Bool) (x : α) (l : List α) : (insertBy lt x l).Perm (x :: l) := by
  induction l with
  | nil => exact .refl _
  | cons y ys ih =>
    unfold insertBy
    split
    · exact ((ih.cons y).trans (.swap x y ys))
    · exact .refl _

/-- A sorted list holds what the list holds. -/
theorem sortBy_perm {α : Type} (lt : α → α → Bool) (l : List α) : (sortBy lt l).Perm l := by
  induction l with
  | nil => exact .refl _
  | cons x xs ih => exact (insertBy_perm lt x _).trans (ih.cons x)

/-- The least element is in the list. -/
theorem leastBy_mem {α : Type} {lt : α → α → Bool} {l : List α} {x : α} (h : leastBy lt l = some x) : x ∈ l := by
  induction l generalizing x with
  | nil => cases h
  | cons y ys ih =>
    unfold leastBy at h
    split at h
    · cases h; exact List.mem_cons_self
    · rename_i z hz
      split at h
      · cases h; exact List.mem_cons_of_mem _ (ih hz)
      · cases h; exact List.mem_cons_self

/-- An empty list alone has no least element. -/
theorem leastBy_eq_none {α : Type} {lt : α → α → Bool} {l : List α} : leastBy lt l = none ↔ l = [] := by
  cases l with
  | nil => simp [leastBy]
  | cons y ys =>
    unfold leastBy
    split
    · simp
    · split <;> simp

/-! ## The fault list as data -/

/-- From `f` to `g` the fault list keeps at most eight records (R172) and one record per pair of code and subject. -/
structure FaultLog.Keeps (f g : FaultLog) : Prop where
  length : f.records.length ≤ 8 → g.records.length ≤ 8
  keys : (f.records.map (fun r => (r.code, r.subject))).Nodup → (g.records.map (fun r => (r.code, r.subject))).Nodup

/-- The same records are kept. -/
theorem FaultLog.Keeps.of_eq {f g : FaultLog} (h : g.records = f.records) : f.Keeps g := by
  constructor <;> rw [h] <;> exact id

theorem FaultLog.Keeps.trans {f g h : FaultLog} (a : f.Keeps g) (b : g.Keeps h) : f.Keeps h :=
  ⟨b.length ∘ a.length, b.keys ∘ a.keys⟩

/-- Records changed in place, their pairs kept, are kept. -/
theorem FaultLog.Keeps.map {f : FaultLog} {k : FaultRecord → FaultRecord} {m : Bool} {t : Timer}
    (h : ∀ r, ((k r).code, (k r).subject) = (r.code, r.subject)) :
    f.Keeps { records := f.records.map k, storageLoss := m, retry := t } :=
  ⟨by simp, nodup_map_of_keys (fun r _ => h r)⟩

theorem FaultRecord.isFor_iff {c : FaultCode} {a : Addr} {r : FaultRecord} :
    r.isFor c a = true ↔ r.code = c ∧ r.subject = a := by simp [FaultRecord.isFor]

theorem FaultLog.raise_keeps (c : FaultCode) (a : Addr) (now : Ms) (f : FaultLog) : f.Keeps (f.raise c a now).2 := by
  unfold FaultLog.raise
  split
  · split
    · exact .of_eq rfl
    · refine .map (fun x => ?_)
      split
      · rename_i hx; simp [FaultRecord.raised, (FaultRecord.isFor_iff.1 hx).1, (FaultRecord.isFor_iff.1 hx).2]
      · rfl
  · rename_i hnone
    have absent : ∀ r ∈ f.records,
        (r.code, r.subject) ≠ ((FaultRecord.raised c a now).code, (FaultRecord.raised c a now).subject) := by
      intro r hr he
      simp only [FaultRecord.raised, Prod.mk.injEq] at he
      exact List.find?_eq_none.1 hnone r hr (FaultRecord.isFor_iff.2 he)
    split
    · exact ⟨fun _ => by simp; omega, fun h => nodup_append_key h absent⟩
    · split
      · rename_i old hold
        have hm := (List.mem_filter.1 (leastBy_mem hold)).1
        have hlt : (f.records.filter (fun x => !x.isFor old.code old.subject)).length < f.records.length :=
          List.length_filter_lt_length_iff_exists.2 ⟨old, hm, by simp [FaultRecord.isFor]⟩
        refine ⟨fun h => ?_,
          fun h => nodup_append_key (nodup_filter_of_keys _ h) (fun r hr => absent r (List.mem_filter.1 hr).1)⟩
        simp only [List.length_append, List.length_cons, List.length_nil]
        omega
      · exact .of_eq rfl

theorem FaultLog.clear_keeps (c : FaultCode) (a : Addr) (f : FaultLog) : f.Keeps (f.clear c a).2 := by
  unfold FaultLog.clear
  split
  · split
    · refine .map (fun x => ?_)
      split <;> rfl
    · exact .of_eq rfl
  · exact .of_eq rfl

theorem FaultLog.compose_keeps (chosen : List FaultRecord) (f : FaultLog) : f.Keeps (f.compose chosen) := by
  refine .map (fun x => ?_)
  split <;> rfl

theorem FaultLog.bodyEnded_keeps (f : FaultLog) : f.Keeps f.bodyEnded := by
  have marked : f.Keeps { f with
      records := f.records.map (fun r => if r.composed then { r with reported := true, composed := false } else r) } := by
    refine .map (fun x => ?_)
    split <;> rfl
  exact marked.trans ⟨fun h => Nat.le_trans (List.length_filter_le _ _) h, nodup_filter_of_keys _⟩

theorem FaultLog.unsent_keeps (f : FaultLog) : f.Keeps f.unsent := .map (fun _ => rfl)

theorem FaultLog.marksCleared_keeps (f : FaultLog) : f.Keeps f.marksCleared := .map (fun _ => rfl)

/-! ## The status records' range -/

/-- The range of the status line's queue and lost count (R195). -/
def Lu.StatusInRange (l : Lu) : Prop := l.records.length ≤ 16 ∧ l.lost ≤ 255

/-! ## The frame relation -/

/-- Only the transmit path, the fault list and the status line's queue have changed from `s` to `t`. -/
structure State.FaultFrame (s t : State) : Prop where
  now : t.now = s.now
  pending : t.pending = s.pending
  mu : t.mu = s.mu
  ev : t.ev = s.ev
  det : t.det = s.det
  nt : t.nt = s.nt
  su : t.su = s.su
  sv : t.sv = s.sv
  sc : t.sc = s.sc
  run : t.fu.run = s.fu.run
  epoch : t.fu.epoch = s.fu.epoch
  fires : t.fu.fires = s.fu.fires
  overflow : t.fu.overflow = s.fu.overflow
  refresh : t.fu.profileRefresh = s.fu.profileRefresh
  guards : t.guards = { s.guards with assessment := t.guards.assessment }
  lu : t.lu = { s.lu with records := t.lu.records, lost := t.lu.lost, sendEnd := t.lu.sendEnd }
  status : s.lu.StatusInRange → t.lu.StatusInRange
  faults : s.faults.Keeps t.faults
  counters : CountersInRange s.counters → CountersInRange t.counters
  seen : (s.fu.seen.map (·.origin)).Nodup → (t.fu.seen.map (·.origin)).Nodup
  levels : s.radio.InRange → t.radio.InRange

/-- The transmit path's frame is a part of it. -/
theorem State.TxFrame.fault {s t : State} (h : s.TxFrame t) : s.FaultFrame t where
  now := h.now
  pending := h.pending
  mu := h.mu
  ev := h.ev
  det := h.det
  nt := h.nt
  su := h.su
  sv := h.sv
  sc := h.sc
  run := h.run
  epoch := h.epoch
  fires := h.fires
  overflow := h.overflow
  refresh := h.refresh
  guards := h.guards
  lu := by rw [h.lu]
  status := by rw [h.lu]; exact id
  faults := .of_eq (by rw [h.faults])
  counters := h.counters
  seen := h.seen
  levels := h.levels

theorem State.FaultFrame.refl (s : State) : s.FaultFrame s := (State.TxFrame.refl s).fault

theorem State.FaultFrame.trans {s t u : State} (h : s.FaultFrame t) (k : t.FaultFrame u) : s.FaultFrame u where
  now := k.now.trans h.now
  pending := k.pending.trans h.pending
  mu := k.mu.trans h.mu
  ev := k.ev.trans h.ev
  det := k.det.trans h.det
  nt := k.nt.trans h.nt
  su := k.su.trans h.su
  sv := k.sv.trans h.sv
  sc := k.sc.trans h.sc
  run := k.run.trans h.run
  epoch := k.epoch.trans h.epoch
  fires := k.fires.trans h.fires
  overflow := k.overflow.trans h.overflow
  refresh := k.refresh.trans h.refresh
  guards := by rw [k.guards, h.guards]
  lu := by rw [k.lu, h.lu]
  status := k.status ∘ h.status
  faults := h.faults.trans k.faults
  counters := k.counters ∘ h.counters
  seen := k.seen ∘ h.seen
  levels := k.levels ∘ h.levels

theorem State.FaultFrame.cfg {s t : State} (h : s.FaultFrame t) : t.cfg = s.cfg := by simp only [State.cfg, h.sc]

theorem State.FaultFrame.isPanel {s t : State} (h : s.FaultFrame t) : t.isPanel = s.isPanel := by
  simp only [State.isPanel, h.sc]

theorem State.FaultFrame.isDetector {s t : State} (h : s.FaultFrame t) : t.isDetector = s.isDetector := by
  simp only [State.isDetector, h.sc]

theorem State.FaultFrame.ms {s t : State} (h : s.FaultFrame t) : t.ms = s.ms := by simp only [State.ms, h.now]

theorem State.FaultFrame.sameDetection {s t : State} (h : s.FaultFrame t) : s.SameDetection t :=
  ⟨h.mu, h.ev, h.det, h.nt, h.sc, h.fires, h.overflow, h.epoch⟩

/-! ## One lemma for each operation -/

/-- The fault list replaced by one that keeps its bound and its keys. -/
theorem State.faults_frame (f : FaultLog) (s : State) (h : s.faults.Keeps f) :
    s.FaultFrame { s with faults := f } :=
  { State.FaultFrame.refl s with faults := h, counters := id, seen := id, status := id }

/-- An offered record changes the record queue, the lost count and the send timer alone (R195). -/
theorem Lu.offer_lu (now : Us) (r : StatusRecord) (l : Lu) :
    l.offer now r = { l with
      records := (l.offer now r).records, lost := (l.offer now r).lost, sendEnd := (l.offer now r).sendEnd } := by
  unfold Lu.offer
  split
  · rfl
  · split <;> rfl

/-- An offered record leaves at most 16 queued and at most 255 counted (R195). -/
theorem Lu.offer_status (now : Us) (r : StatusRecord) (l : Lu) (h : l.StatusInRange) : (l.offer now r).StatusInRange := by
  unfold Lu.offer
  split
  · exact ⟨by simp only [List.length_append, List.length_cons, List.length_nil]; omega, h.2⟩
  · split
    · exact ⟨by have := h.1; simp only [List.length_append, List.length_drop, List.length_cons, List.length_nil]; omega, h.2⟩
    · exact ⟨h.1, by simp only; omega⟩

theorem State.panelRecord_frame (type : RecordType) (origin : Addr) (zone code detail : Byte) (s : State) :
    s.FaultFrame (s.panelRecord type origin zone code detail) := by
  unfold State.panelRecord
  split
  · exact { State.FaultFrame.refl s with
      lu := Lu.offer_lu _ _ _, faults := .of_eq rfl, counters := id, seen := id, status := Lu.offer_status _ _ _ }
  · exact .refl s

theorem State.look_frame (s : State) : s.FaultFrame s.look := by
  unfold State.look
  split
  · exact .refl s
  · split
    · rename_i h
      exact (State.originate_frame h).fault.trans (State.faults_frame _ _ (FaultLog.compose_keeps _ _))
    · split
      · exact .refl s
      · exact State.faults_frame _ s (.of_eq rfl)

theorem State.raise_frame (c : FaultCode) (a : Addr) (s : State) : s.FaultFrame (s.raise c a) := by
  unfold State.raise
  dsimp only
  split
  · exact ((State.faults_frame _ s (FaultLog.raise_keeps c a s.ms _)).trans (State.panelRecord_frame _ _ _ _ _ _)).trans
      (State.look_frame _)
  · exact State.faults_frame _ s (FaultLog.raise_keeps c a s.ms _)

theorem State.raiseOwn_frame (c : FaultCode) (s : State) : s.FaultFrame (s.raiseOwn c) := State.raise_frame c _ s

theorem State.clear_frame (c : FaultCode) (a : Addr) (s : State) : s.FaultFrame (s.clear c a) := by
  unfold State.clear
  dsimp only
  split
  · exact ((State.faults_frame _ s (FaultLog.clear_keeps c a _)).trans (State.panelRecord_frame _ _ _ _ _ _)).trans
      (State.look_frame _)
  · exact State.faults_frame _ s (FaultLog.clear_keeps c a _)

theorem State.clearOwn_frame (c : FaultCode) (s : State) : s.FaultFrame (s.clearOwn c) := State.clear_frame c _ s

theorem State.faultBodyEnded_frame (s : State) : s.FaultFrame s.faultBodyEnded :=
  (State.faults_frame _ s (FaultLog.bodyEnded_keeps _)).trans (State.look_frame _)

theorem State.faultUnsent_frame (s : State) : s.FaultFrame s.faultUnsent :=
  (State.faults_frame _ s (FaultLog.unsent_keeps _)).trans (State.look_frame _)

theorem State.faultMarksCleared_frame (s : State) : s.FaultFrame s.faultMarksCleared :=
  (State.faults_frame _ s (FaultLog.marksCleared_keeps _)).trans (State.look_frame _)

theorem State.tellUnsent_frame (b : Bool) (s : State) : s.FaultFrame (s.tellUnsent b) := by
  unfold State.tellUnsent
  split
  · exact State.faultUnsent_frame s
  · exact .refl s

theorem State.abandon_frame (e : TxEntry) (s : State) : s.FaultFrame (s.abandon e) :=
  ((((State.tu_frame _ s).trans (State.count_frame _ _)).trans (State.freeAll_frame _ _)).fault.trans
    (State.tellUnsent_frame _ _)).trans (State.select_frame _).fault

theorem State.busyAssessment_frame (s : State) : s.FaultFrame s.busyAssessment := by
  unfold State.busyAssessment
  dsimp only
  split
  · exact (State.count_frame _ s).fault
  · split
    · exact ((State.count_frame _ s).trans (State.enterBackoff_frame _)).fault
    · split
      · exact ((State.count_frame _ s).trans (State.tu_frame _ _)).fault.trans (State.abandon_frame _ _)
      · exact (((State.count_frame _ s).trans (State.tu_frame _ _)).trans (State.enterBackoff_frame _)).fault

theorem State.watchReturned_frame (s : State) : s.TxFrame s.watchReturned := by
  unfold State.watchReturned
  split
  · exact State.tu_frame _ s
  · exact .refl s

theorem State.restartFrame_frame (strike : Bool) (s : State) : s.TxFrame (s.restartFrame strike).1 := by
  have back : ∀ t : State, s.TxFrame t →
      s.TxFrame (if t.currentIs .urgent then (t.returnCurrent.watchReturned, ([] : List (Fin 8)))
        else (t.returnCurrent, [])).1 := by
    intro t h
    split
    · exact (h.trans (State.returnCurrent_frame _)).trans (State.watchReturned_frame _)
    · exact h.trans (State.returnCurrent_frame _)
  unfold State.restartFrame
  split
  · exact .refl s
  · split
    · exact (State.tu_frame _ s).trans (State.count_frame _ _)
    · exact back _ (State.tu_frame _ s)

/-! ## Counts -/

/-- The supervision unit's counts stay in range, and its self-test and health timer stand. -/
structure Sv.CountFrame (v w : Sv) : Prop where
  range : v.InRange → w.InRange
  selfTest : w.selfTest = v.selfTest
  ended : w.selfTestEnded = v.selfTestEnded
  health : w.health = v.health

theorem State.batteryWatch_frame (v : Nat) (s : State) :
    ∃ w, s.sv.CountFrame w ∧ ({ s with sv := w } : State).FaultFrame (s.batteryWatch v) := by
  unfold State.batteryWatch
  dsimp only
  split
  · refine ⟨{ s.sv with below := min 3 (s.sv.below + 1), above := 0 }, ⟨fun h => ?_, rfl, rfl, rfl⟩, ?_⟩
    · exact ⟨by simp only; omega, by simp, h.2.2.1, h.2.2.2⟩
    · split
      · exact State.raiseOwn_frame _ _
      · exact .refl _
  · split
    · exact ⟨{ s.sv with below := 0, above := 0 }, ⟨fun h => ⟨by simp, by simp, h.2.2.1, h.2.2.2⟩, rfl, rfl, rfl⟩, .refl _⟩
    · refine ⟨{ s.sv with below := 0, above := min 3 (s.sv.above + 1) }, ⟨fun h => ?_, rfl, rfl, rfl⟩, ?_⟩
      · exact ⟨by simp, by simp only; omega, h.2.2.1, h.2.2.2⟩
      · split
        · exact State.clearOwn_frame _ _
        · exact .refl _

theorem State.scanCounted_frame (s : State) :
    ∃ w, s.sv.CountFrame w ∧ ({ s with sv := w } : State).FaultFrame s.scanCounted := by
  unfold State.scanCounted
  dsimp only
  refine ⟨{ s.sv with completedScans := min 3 (s.sv.completedScans + 1) }, ⟨fun h => ?_, rfl, rfl, rfl⟩, ?_⟩
  · exact ⟨h.1, h.2.1, by simp only; omega, h.2.2.2⟩
  · split
    · exact State.clearOwn_frame _ _
    · exact .refl _

/-- The restart history never exceeds three times (R170). -/
theorem historyAfter_length (h : List Ms) (now : Ms) (k : h.length ≤ 3) : (historyAfter h now).length ≤ 3 := by
  unfold historyAfter
  split
  · simp; omega
  · simp; omega

/-! ## What a raise and a clear leave in the list -/

/-- With one entry per key, entries of one key are one entry. -/
theorem eq_of_key_eq {α β : Type} {key : α → β} {l : List α} {x y : α} (h : (l.map key).Nodup) (hx : x ∈ l) (hy : y ∈ l)
    (he : key x = key y) : x = y := by
  induction l with
  | nil => cases hx
  | cons a l ih =>
    rw [List.map_cons, List.nodup_cons] at h
    rcases List.mem_cons.1 hx with rfl | hx' <;> rcases List.mem_cons.1 hy with rfl | hy'
    · rfl
    · exact absurd (List.mem_map.2 ⟨y, hy', he.symm⟩) h.1
    · exact absurd (List.mem_map.2 ⟨x, hx', he⟩) h.1
    · exact ih h.2 hx' hy'

/-- A raise that can be stored leaves an ACTIVE record of its pair (R173, R175). -/
theorem FaultLog.raise_active {c : FaultCode} {a : Addr} {now : Ms} {f : FaultLog}
    (h : (∃ r ∈ f.records, r.code = c ∧ r.subject = a) ∨ f.records.length < 8 ∨ ∃ r ∈ f.records, r.active = false) :
    ∃ r ∈ (f.raise c a now).2.records, r.code = c ∧ r.subject = a ∧ r.active = true := by
  unfold FaultLog.raise
  split
  · rename_i r hr
    have hm := List.mem_of_find?_eq_some hr
    have hk := FaultRecord.isFor_iff.1 (List.find?_some hr)
    split
    · rename_i ha; exact ⟨r, hm, hk.1, hk.2, ha⟩
    · refine ⟨.raised c a now, List.mem_map.2 ⟨r, hm, ?_⟩, rfl, rfl, rfl⟩
      rw [if_pos (FaultRecord.isFor_iff.2 hk)]
  · rename_i hnone
    have absent : ∀ r ∈ f.records, ¬ (r.code = c ∧ r.subject = a) := fun r hr hc =>
      List.find?_eq_none.1 hnone r hr (FaultRecord.isFor_iff.2 hc)
    split
    · exact ⟨.raised c a now, by simp, rfl, rfl, rfl⟩
    · split
      · exact ⟨.raised c a now, by simp, rfl, rfl, rfl⟩
      · rename_i hl _ hn
        rcases h with ⟨r, hr, hc⟩ | h | ⟨r, hr, ha⟩
        · exact absurd hc (absent r hr)
        · exact absurd h hl
        · have := leastBy_eq_none.1 hn
          have hm : r ∈ f.records.filter (fun r => !r.active) := List.mem_filter.2 ⟨hr, by simp [ha]⟩
          rw [this] at hm; cases hm

/-- A clear leaves no ACTIVE record of its pair (R174), where the list holds one record per pair. -/
theorem FaultLog.clear_inactive {c : FaultCode} {a : Addr} {f : FaultLog} :
    (f.records.map (fun r => (r.code, r.subject))).Nodup →
    ¬ ∃ r ∈ (f.clear c a).2.records, r.code = c ∧ r.subject = a ∧ r.active = true := by
  intro hk ⟨r, hr, hc, hs, ha⟩
  unfold FaultLog.clear at hr
  split at hr
  · split at hr
    · obtain ⟨x, hx, rfl⟩ := List.mem_map.1 hr
      by_cases h : x.isFor c a = true
      · rw [if_pos h] at ha; simp at ha
      · rw [if_neg h] at hc hs; exact h (FaultRecord.isFor_iff.2 ⟨hc, hs⟩)
    · rename_i r0 hr0 hn
      have hm := List.mem_of_find?_eq_some hr0
      have hk0 := FaultRecord.isFor_iff.1 (List.find?_some hr0)
      have := eq_of_key_eq hk hr hm (by rw [hc, hs, hk0.1, hk0.2])
      subst this; exact absurd ha (by simpa using hn)
  · rename_i hnone
    exact List.find?_eq_none.1 hnone r hr (FaultRecord.isFor_iff.2 ⟨hc, hs⟩)

/-- An ACTIVE record of a pair stands in a fault list. -/
def FaultLog.Active (c : FaultCode) (a : Addr) (f : FaultLog) : Prop :=
  ∃ r ∈ f.records, r.code = c ∧ r.subject = a ∧ r.active = true

/-- Records changed in place, their pairs and their ACTIVE mark kept, leave what is ACTIVE. -/
theorem FaultLog.active_map {c : FaultCode} {a : Addr} {l m : List FaultRecord} {k : FaultRecord → FaultRecord}
    (hm : m = l.map k) (h : ∀ r, (k r).code = r.code ∧ (k r).subject = r.subject ∧ (k r).active = r.active) :
    (∃ r ∈ m, r.code = c ∧ r.subject = a ∧ r.active = true) ↔
      ∃ r ∈ l, r.code = c ∧ r.subject = a ∧ r.active = true := by
  subst hm
  constructor
  · rintro ⟨r, hr, h1, h2, h3⟩
    obtain ⟨x, hx, rfl⟩ := List.mem_map.1 hr
    exact ⟨x, hx, (h x).1 ▸ h1, (h x).2.1 ▸ h2, (h x).2.2 ▸ h3⟩
  · rintro ⟨r, hr, h1, h2, h3⟩
    exact ⟨k r, List.mem_map.2 ⟨r, hr, rfl⟩, (h r).1.trans h1, (h r).2.1.trans h2, (h r).2.2.trans h3⟩

theorem FaultLog.compose_active (chosen : List FaultRecord) (c : FaultCode) (a : Addr) (f : FaultLog) :
    (f.compose chosen).Active c a ↔ f.Active c a :=
  FaultLog.active_map rfl (fun r => by split <;> exact ⟨rfl, rfl, rfl⟩)

/-- A look changes no record's ACTIVE mark (R176). -/
theorem State.look_active (c : FaultCode) (a : Addr) (s : State) : s.look.FaultActive c a ↔ s.FaultActive c a := by
  unfold State.look
  split
  · exact .rfl
  · split
    · rename_i t ht
      have h := (State.originate_frame ht).faults
      show (FaultLog.compose _ t.faults).Active c a ↔ s.faults.Active c a
      rw [FaultLog.compose_active, h]
    · split <;> exact .rfl

theorem State.panelRecord_faults (type : RecordType) (o : Addr) (z k d : Byte) (s : State) :
    (s.panelRecord type o z k d).faults = s.faults := by
  unfold State.panelRecord
  split <;> rfl

/-- The ACTIVE records after a raise are those of the list as the raise leaves it (R173). -/
theorem State.raise_active (c : FaultCode) (a : Addr) (c' : FaultCode) (a' : Addr) (s : State) :
    (s.raise c a).FaultActive c' a' ↔ (s.faults.raise c a s.ms).2.Active c' a' := by
  unfold State.raise
  dsimp only
  split
  · rw [State.look_active]
    unfold State.FaultActive
    rw [State.panelRecord_faults]
    exact .rfl
  · exact .rfl

/-- The ACTIVE records after a clear are those of the list as the clear leaves it (R174). -/
theorem State.clear_active (c : FaultCode) (a : Addr) (c' : FaultCode) (a' : Addr) (s : State) :
    (s.clear c a).FaultActive c' a' ↔ (s.faults.clear c a).2.Active c' a' := by
  unfold State.clear
  dsimp only
  split
  · rw [State.look_active]
    unfold State.FaultActive
    rw [State.panelRecord_faults]
    exact .rfl
  · exact .rfl

/-- A raise leaves every ACTIVE record (R173, R175), where the list holds one record per pair. -/
theorem FaultLog.raise_keeps_active {c c' : FaultCode} {a a' : Addr} {now : Ms} {f : FaultLog}
    (hk : (f.records.map (fun r => (r.code, r.subject))).Nodup) (h : f.Active c' a') :
    (f.raise c a now).2.Active c' a' := by
  obtain ⟨r, hr, h1, h2, h3⟩ := h
  unfold FaultLog.raise
  split
  · split
    · exact ⟨r, hr, h1, h2, h3⟩
    · by_cases k : r.isFor c a = true
      · refine ⟨.raised c a now, List.mem_map.2 ⟨r, hr, by rw [if_pos k]⟩, ?_, ?_, rfl⟩
        · exact (FaultRecord.isFor_iff.1 k).1.symm.trans h1
        · exact (FaultRecord.isFor_iff.1 k).2.symm.trans h2
      · exact ⟨r, List.mem_map.2 ⟨r, hr, by rw [if_neg k]⟩, h1, h2, h3⟩
  · split
    · exact ⟨r, List.mem_append_left _ hr, h1, h2, h3⟩
    · split
      · rename_i old hold
        by_cases k : r.isFor old.code old.subject = true
        · have hm := List.mem_filter.1 (leastBy_mem hold)
          have he := FaultRecord.isFor_iff.1 k
          have := eq_of_key_eq hk hr hm.1 (by rw [he.1, he.2])
          rw [this] at h3
          simp [h3] at hm
        · exact ⟨r, List.mem_append_left _ (List.mem_filter.2 ⟨hr, by simpa using k⟩), h1, h2, h3⟩
      · exact ⟨r, hr, h1, h2, h3⟩

/-- A clear of one pair leaves what is ACTIVE of every other (R174). -/
theorem FaultLog.clear_other {c c' : FaultCode} {a a' : Addr} {f : FaultLog} (h : (c', a') ≠ (c, a)) :
    (f.clear c a).2.Active c' a' ↔ f.Active c' a' := by
  unfold FaultLog.clear
  split
  · split
    · constructor
      · rintro ⟨r, hr, h1, h2, h3⟩
        obtain ⟨x, hx, rfl⟩ := List.mem_map.1 hr
        by_cases k : x.isFor c a = true
        · rw [if_pos k] at h3; simp at h3
        · rw [if_neg k] at h1 h2 h3; exact ⟨x, hx, h1, h2, h3⟩
      · rintro ⟨r, hr, h1, h2, h3⟩
        refine ⟨r, List.mem_map.2 ⟨r, hr, if_neg (fun k => h ?_)⟩, h1, h2, h3⟩
        have := FaultRecord.isFor_iff.1 k
        rw [← h1, ← h2, this.1, this.2]
    · exact .rfl
  · exact .rfl

end Sys2Proof.Machine
end

