-- ==== Sys2Proof/Laws/Kept.lean ====
section
/-! SUPPORT. What every operation keeps (station time, the queue, the ranges, the keys, the record in force) and what only
the RESET actions undo (FIRE and the listed fire origins), with one lemma for each operation. -/
namespace Sys2Proof.Machine

/-! ## The two relations -/

/-- An inert station stays inert; out of reset, and with no start-up read in progress, the record in force stays. -/
structure Sc.Stays (a b : Sc) : Prop where
  inert : a.inert = true → b.inert = true
  config : a.inReset = false → (∀ r ∈ a.read, r.purpose = .selfTest) →
    b.config = a.config ∧ b.inReset = false ∧ ∀ r ∈ b.read, r.purpose = .selfTest

/-- What every operation keeps. -/
structure State.Kept (s t : State) : Prop where
  now : t.now = s.now
  pending : t.pending = s.pending
  ranges : s.InRange → t.InRange
  keys : s.TablesKeyed → t.TablesKeyed
  sc : s.sc.Stays t.sc

/-- What every operation but the RESET actions keeps of the flood unit: the epoch and the listed fire origins. -/
structure State.Listed (s t : State) : Prop where
  epoch : t.fu.epoch = s.fu.epoch
  listed : ∀ f ∈ s.fu.fires, ∃ g ∈ t.fu.fires, g.origin = f.origin ∧ g.zone = f.zone ∧ g.cause = f.cause ∧
    (f.silenced = true → g.silenced = true)

/-- What every operation but the RESET actions keeps: the epoch, the listed fire origins, and FIRE with its cause and
evidence. -/
structure State.Latched (s t : State) : Prop extends s.Listed t where
  fire : s.det.state = .fire → t.det.state = .fire ∧ t.det.cause = s.det.cause ∧ t.det.evidence = s.det.evidence

theorem Sc.Stays.refl (a : Sc) : a.Stays a := ⟨id, fun h k => ⟨rfl, h, k⟩⟩

theorem Sc.Stays.trans {a b c : Sc} (h : a.Stays b) (k : b.Stays c) : a.Stays c where
  inert := k.inert ∘ h.inert
  config := fun i r =>
    have hb := h.config i r
    have hc := k.config hb.2.1 hb.2.2
    ⟨hc.1.trans hb.1, hc.2⟩

/-- A controller with the same record, reads, reset line and inertness stays. -/
theorem Sc.Stays.of_eq {a b : Sc} (hi : b.inert = a.inert) (hc : b.config = a.config) (hr : b.inReset = a.inReset)
    (hd : b.read = a.read) : a.Stays b where
  inert := by rw [hi]; exact id
  config := by rw [hc, hr, hd]; exact fun h k => ⟨rfl, h, k⟩

theorem State.Kept.refl (s : State) : s.Kept s := ⟨rfl, rfl, id, id, .refl _⟩

theorem State.Kept.trans {s t u : State} (h : s.Kept t) (k : t.Kept u) : s.Kept u :=
  ⟨k.now.trans h.now, k.pending.trans h.pending, k.ranges ∘ h.ranges, k.keys ∘ h.keys, h.sc.trans k.sc⟩

theorem State.Listed.refl (s : State) : s.Listed s := ⟨rfl, fun f hf => ⟨f, hf, rfl, rfl, rfl, id⟩⟩

theorem State.Listed.trans {s t u : State} (h : s.Listed t) (k : t.Listed u) : s.Listed u where
  epoch := k.epoch.trans h.epoch
  listed := fun f hf =>
    have ⟨g, hg, h1, h2, h3, h4⟩ := h.listed f hf
    have ⟨i, hi, k1, k2, k3, k4⟩ := k.listed g hg
    ⟨i, hi, k1.trans h1, k2.trans h2, k3.trans h3, k4 ∘ h4⟩

/-- What an operation keeps where `P` bounds the level it is given. -/
structure State.KeptIf (P : Prop) (s t : State) : Prop where
  now : t.now = s.now
  pending : t.pending = s.pending
  ranges : P → s.InRange → t.InRange
  keys : s.TablesKeyed → t.TablesKeyed
  sc : s.sc.Stays t.sc

theorem State.Kept.keptIf {P : Prop} {s t : State} (h : s.Kept t) : s.KeptIf P t :=
  ⟨h.now, h.pending, fun _ => h.ranges, h.keys, h.sc⟩

theorem State.KeptIf.trans {P : Prop} {s t u : State} (h : s.KeptIf P t) (k : t.KeptIf P u) : s.KeptIf P u :=
  ⟨k.now.trans h.now, k.pending.trans h.pending, fun p => k.ranges p ∘ h.ranges p, k.keys ∘ h.keys, h.sc.trans k.sc⟩

/-- The bound holds where the figures are in range. -/
theorem State.KeptIf.kept {P : Prop} {s t : State} (h : s.KeptIf P t) (hp : s.InRange → P) : s.Kept t :=
  ⟨h.now, h.pending, fun r => h.ranges (hp r) r, h.keys, h.sc⟩

/-- The epoch and the fire origin list untouched are kept. -/
theorem State.Listed.of_eq {s t : State} (he : t.fu.epoch = s.fu.epoch) (hf : t.fu.fires = s.fu.fires) : s.Listed t where
  epoch := he
  listed := by rw [hf]; exact fun f h => ⟨f, h, rfl, rfl, rfl, id⟩

/-- Outside FIRE nothing is latched. -/
theorem State.Listed.latched {s t : State} (h : s.Listed t) (hs : s.det.state ≠ .fire) : s.Latched t :=
  { h with fire := fun k => absurd k hs }

theorem State.Latched.refl (s : State) : s.Latched s := { State.Listed.refl s with fire := fun h => ⟨h, rfl, rfl⟩ }

theorem State.Latched.trans {s t u : State} (h : s.Latched t) (k : t.Latched u) : s.Latched u where
  toListed := h.toListed.trans k.toListed
  fire := fun hs =>
    have ht := h.fire hs
    have hu := k.fire ht.1
    ⟨hu.1, hu.2.1.trans ht.2.1, hu.2.2.trans ht.2.2⟩

/-- The detection record and the fire origin list untouched are kept. -/
theorem State.Latched.of_eq {s t : State} (he : t.fu.epoch = s.fu.epoch) (hd : t.det = s.det)
    (hf : t.fu.fires = s.fu.fires) : s.Latched t where
  toListed := .of_eq he hf
  fire := by rw [hd]; exact fun h => ⟨h, rfl, rfl⟩

theorem State.FaultFrame.latched {s t : State} (h : s.FaultFrame t) : s.Latched t := .of_eq h.epoch h.det h.fires

theorem State.TxFrame.latched {s t : State} (h : s.TxFrame t) : s.Latched t := h.fault.latched

/-- A fault frame keeps everything. -/
theorem State.FaultFrame.kept {s t : State} (h : s.FaultFrame t) : s.Kept t where
  now := h.now
  pending := h.pending
  sc := by rw [h.sc]; exact .refl _
  ranges := fun r =>
    { ev := by rw [h.ev]; exact r.ev
      det := by rw [h.det]; exact r.det
      radio := h.levels r.radio
      table := by rw [h.nt]; exact r.table
      entries := by rw [h.nt]; exact r.entries
      smokeRun := by rw [h.mu]; exact r.smokeRun
      heatRun := by rw [h.mu]; exact r.heatRun
      sv := by rw [h.sv]; exact r.sv
      lu := by
        have := h.status ⟨r.lu.1, r.lu.2.1⟩
        exact ⟨this.1, this.2, by rw [h.lu]; exact r.lu.2.2⟩
      counters := h.counters r.counters
      faults := h.faults.length r.faults
      fires := by rw [h.fires]; exact r.fires
      position := by rw [h.su]; exact r.position
      learnCount := by rw [h.sc]; exact r.learnCount }
  keys := fun k =>
    { table := by rw [h.nt]; exact k.table
      faults := h.faults.keys k.faults
      fires := by rw [h.fires]; exact k.fires
      seen := h.seen k.seen
      remote := by rw [h.lu]; exact k.remote }

theorem State.TxFrame.kept {s t : State} (h : s.TxFrame t) : s.Kept t := h.fault.kept

/-- A change of the detection record alone. -/
theorem State.det_kept (d : Detection) (s : State) (h : s.det.InRange → d.InRange) : s.Kept { s with det := d } :=
  { State.Kept.refl s with
    sc := .refl _
    ranges := fun r => { r with det := h r.det }
    keys := fun k => { k with } }

/-- A change of the evidence state alone. -/
theorem State.ev_kept (v : Evidence) (s : State) (h : s.ev.InRange → v.InRange) : s.Kept { s with ev := v } :=
  { State.Kept.refl s with
    sc := .refl _
    ranges := fun r => { r with ev := h r.ev }
    keys := fun k => { k with } }

/-- A change of the evidence state alone. -/
theorem State.ev_latched (v : Evidence) (s : State) : s.Latched { s with ev := v } := .of_eq rfl rfl rfl

/-- A change of the neighbour table alone. -/
theorem State.nt_kept (nt : List Neighbour) (s : State) (h1 : s.nt.length ≤ 16 → nt.length ≤ 16)
    (h2 : (∀ n ∈ s.nt, n.InRange) → ∀ n ∈ nt, n.InRange)
    (h3 : (s.nt.map (·.addr)).Nodup → (nt.map (·.addr)).Nodup) : s.Kept { s with nt := nt } :=
  { State.Kept.refl s with
    sc := .refl _
    ranges := fun r => { r with table := h1 r.table, entries := h2 r.entries }
    keys := fun k => { k with table := h3 k.table } }

/-- A change of the flood unit alone. -/
theorem State.fu_kept (fu : Fu) (s : State) (h1 : s.fu.fires.length ≤ 8 → fu.fires.length ≤ 8)
    (h2 : (s.fu.fires.map (·.origin)).Nodup → (fu.fires.map (·.origin)).Nodup)
    (h3 : (s.fu.seen.map (·.origin)).Nodup → (fu.seen.map (·.origin)).Nodup) : s.Kept { s with fu := fu } :=
  { State.Kept.refl s with
    sc := .refl _
    ranges := fun r => { r with fires := h1 r.fires }
    keys := fun k => { k with fires := h2 k.fires, seen := h3 k.seen } }

/-- A change of the line unit alone. -/
theorem State.lu_kept (lu : Lu) (s : State) (h1 : s.lu.InRange → lu.InRange)
    (h2 : s.lu.remote.Nodup → lu.remote.Nodup) : s.Kept { s with lu := lu } :=
  { State.Kept.refl s with
    sc := .refl _
    ranges := fun r => { r with lu := h1 r.lu }
    keys := fun k => { k with remote := h2 k.remote } }

theorem State.lu_latched (lu : Lu) (s : State) : s.Latched { s with lu := lu } := .of_eq rfl rfl rfl

/-- A change of the measurement unit alone. -/
theorem State.mu_kept (mu : Mu) (s : State) (h1 : s.mu.smokeRun.InRange → mu.smokeRun.InRange)
    (h2 : s.mu.heatRun.InRange → mu.heatRun.InRange) : s.Kept { s with mu := mu } :=
  { State.Kept.refl s with
    sc := .refl _
    ranges := fun r => { r with smokeRun := h1 r.smokeRun, heatRun := h2 r.heatRun }
    keys := fun k => { k with } }

theorem State.mu_latched (mu : Mu) (s : State) : s.Latched { s with mu := mu } := .of_eq rfl rfl rfl

/-- A change of the supervision unit's counts and timers alone. -/
theorem State.sv_kept (sv : Sv) (s : State) (h : s.sv.InRange → sv.InRange) : s.Kept { s with sv := sv } :=
  { State.Kept.refl s with
    sc := .refl _
    ranges := fun r => { r with sv := h r.sv }
    keys := fun k => { k with } }

theorem State.sv_latched (sv : Sv) (s : State) : s.Latched { s with sv := sv } := .of_eq rfl rfl rfl

/-- A change of the schedule unit alone. -/
theorem State.su_kept (su : Su) (s : State) (h : s.su.position ≤ 4 → su.position ≤ 4) : s.Kept { s with su := su } :=
  { State.Kept.refl s with
    sc := .refl _
    ranges := fun r => { r with position := h r.position }
    keys := fun k => { k with } }

theorem State.su_latched (su : Su) (s : State) : s.Latched { s with su := su } := .of_eq rfl rfl rfl

/-- A change of the start-up controller alone. -/
theorem State.sc_kept (sc : Sc) (s : State) (h1 : s.sc.learnCount ≤ 8 → sc.learnCount ≤ 8) (h2 : s.sc.Stays sc) :
    s.Kept { s with sc := sc } :=
  { State.Kept.refl s with
    sc := h2
    ranges := fun r => { r with learnCount := h1 r.learnCount }
    keys := fun k => { k with } }

theorem State.sc_latched (sc : Sc) (s : State) : s.Latched { s with sc := sc } := .of_eq rfl rfl rfl

/-- A change of the guards alone. -/
theorem State.guards_kept (g : Guards) (s : State) : s.Kept { s with guards := g } :=
  { State.Kept.refl s with sc := .refl _, ranges := fun r => { r with }, keys := fun k => { k with } }

theorem State.guards_latched (g : Guards) (s : State) : s.Latched { s with guards := g } := .of_eq rfl rfl rfl

theorem State.startGuard_kept (n : GuardName) (d : Us) (s : State) : s.Kept (State.startGuard n d s) :=
  State.guards_kept _ s

theorem State.startGuard_latched (n : GuardName) (d : Us) (s : State) : s.Latched (State.startGuard n d s) :=
  State.guards_latched _ s

theorem State.stopGuard_kept (n : GuardName) (s : State) : s.Kept (State.stopGuard n s) := State.guards_kept _ s

theorem State.stopGuard_latched (n : GuardName) (s : State) : s.Latched (State.stopGuard n s) :=
  State.guards_latched _ s

/-! ## The evidence arithmetic's ranges -/

theorem smokeWeight_le (is ratio ratioMin : Nat) : smokeWeight is ratio ratioMin ≤ 16 := by
  unfold smokeWeight
  repeat' split
  all_goals first | omega | skip
  refine Nat.max_le.2 ⟨by omega, Nat.div_le_of_le_mul ?_⟩
  rw [Nat.mul_comm]
  exact Nat.mul_le_mul (by omega) (Nat.le_refl _)

theorem weightedSmoke_le (signal full is ratio ratioMin : Nat) :
    weightedSmoke (smokeEvidence signal full) (smokeWeight is ratio ratioMin) ≤ 1000 := by
  have h1 : smokeEvidence signal full ≤ 1000 := by unfold smokeEvidence; omega
  have h2 := smokeWeight_le is ratio ratioMin
  have := Nat.mul_le_mul h1 h2
  unfold weightedSmoke
  omega

theorem scatterRatio_le (is bs : Nat) : scatterRatio is bs ≤ 63 := by
  unfold scatterRatio; split <;> omega

theorem ringPush_length {ring : List Int} (theta : Int) (h : ring.length ≤ 8) : (ringPush ring theta).length ≤ 8 := by
  unfold ringPush
  split
  · simp; omega
  · simp; omega

/-- A temperature pushed keeps the ring's range (R32). -/
theorem ringPush_range {ring : List Int} {theta : Int} (h : ∀ t ∈ ring, ThetaInRange t) (ht : ThetaInRange theta) :
    ∀ t ∈ ringPush ring theta, ThetaInRange t := by
  intro t hm
  unfold ringPush at hm
  rcases List.mem_append.1 hm with hm | hm
  · split at hm
    · exact h t hm
    · exact h t (List.mem_of_mem_drop hm)
  · obtain rfl := List.mem_singleton.1 hm
    exact ht

/-- The difference of two temperatures of the ring (R33). -/
theorem rateOfRise_range {ring : List Int} (h : ∀ t ∈ ring, ThetaInRange t) :
    -983 ≤ rateOfRise ring ∧ rateOfRise ring ≤ 983 := by
  unfold rateOfRise
  split
  · split
    · rename_i newest oldest hn ho
      have h1 := h newest (List.mem_of_getLast? hn)
      have h2 := h oldest (List.mem_of_head? ho)
      unfold ThetaInRange at h1 h2
      omega
    · omega
  · omega

/-- A valid thermistor code gives a temperature in range (R10, R30). -/
theorem temperature_range {p : HeatPart} (h : p.status = heatStatusOf p.t) (hv : p.status = .valid) :
    ThetaInRange (temperature p.t) := by
  rw [hv] at h
  unfold heatStatusOf at h
  split at h
  · cases h
  · unfold ThetaInRange temperature
    omega

theorem darkCorrect_le (x d : Code) : darkCorrect x d ≤ 1023 := by
  have := x.isLt
  unfold darkCorrect
  omega

theorem Evidence.smokeStep_range (c : ConfigRecord) (p : Option SmokePart) {v : Evidence} (h : v.InRange) :
    (v.smokeStep c p).InRange := by
  unfold Evidence.smokeStep
  split
  · split
    · exact { h with
        esw := weightedSmoke_le _ _ _ _ _
        smoke := by simp only [Option.getD_some]; unfold smokeSignal; omega
        ratio := by simp only [Option.getD_some]; exact scatterRatio_le _ _ }
    · exact h
  · exact h

theorem Evidence.heatStep_range (c : ConfigRecord) (p : Option HeatPart) {v : Evidence} (h : v.InRange)
    (hp : ∀ x ∈ p, x.status = heatStatusOf x.t) : (v.heatStep c p).InRange := by
  unfold Evidence.heatStep
  dsimp only
  split
  · rename_i x
    split
    · rename_i hv
      have ht := temperature_range (hp x rfl) hv
      exact { h with
        eh := by simp only [heatEvidence]; omega
        theta := by intro t k; obtain rfl := Option.some.inj k; exact ht
        candidate := by intro t k; obtain rfl := Option.some.inj k; exact ht
        ror := rateOfRise_range h.ring }
    · exact { h with eh := by simp, ror := rateOfRise_range h.ring }
  · exact { h with eh := by simp, ror := rateOfRise_range h.ring }

/-- The figures of an evaluation stay in range (R18). -/
theorem Evidence.figures_range (c : ConfigRecord) (set : SampleSet) {v : Evidence} (h : v.InRange)
    (hp : ∀ x ∈ set.heat, x.status = heatStatusOf x.t) : (v.figures c set).InRange :=
  { Evidence.heatStep_range c set.heat (Evidence.smokeStep_range c set.smoke h) hp with
    e := by simp only [Evidence.figures, Evidence.combineStep, combined]; omega }

/-- A learning evaluation keeps the ranges (R21, R22). -/
theorem Evidence.learnStep_range (p : SmokePart) {v : Evidence} (h : v.InRange) (hl : v.learning = true) :
    (v.learnStep p).InRange := by
  have hi := darkCorrect_le p.i p.d
  have hb := darkCorrect_le p.b p.d
  have h1 := h.learning hl
  have h2 := h.sumIr
  have h3 := h.sumBlue
  unfold Evidence.learnStep
  dsimp only
  split
  · exact { h with
      learnCount := by simp only; omega
      learning := fun _ => by simp only; omega
      sumIr := by simp only; omega
      sumBlue := by simp only; omega }
  · exact { h with
      ibase := by simp only; omega
      bbase := by simp only; omega
      learnCount := by simp only; omega
      learning := fun k => by cases k
      sumIr := by simp
      sumBlue := by simp }

/-- A tracking step keeps Bbase within what a code can bring (R20, R23). -/
theorem trackBase_le {corrected base : Nat} (hc : corrected ≤ 1023) (hb : base ≤ 16368) : trackBase corrected base ≤ 16368 := by
  unfold trackBase
  dsimp only
  split
  · omega
  · split <;> omega

/-- The baselines stay in range (R22, R24). -/
theorem Evidence.baselineStep_range (st : DetState) (p : Option SmokePart) {v : Evidence} (h : v.InRange) :
    (v.baselineStep st p).2.InRange := by
  unfold Evidence.baselineStep
  split
  · split
    · split
      · rename_i hl
        exact Evidence.learnStep_range _ h hl
      · split
        · refine { h with ibase := ?_, bbase := trackBase_le (darkCorrect_le _ _) h.bbase }
          have := h.ibase
          simp only [trackIbase]
          split <;> omega
        · exact h
    · exact h
  · exact h

/-! ## The detection unit -/

theorem State.enterFire_kept (o : Addr) (z c : Byte) (s : State) : s.Kept (s.enterFire o z c) := by
  unfold State.enterFire
  dsimp only
  split
  · exact .refl s
  · rename_i hno
    split
    · refine State.Kept.trans (State.fu_kept _ s ?_ ?_ (by exact id)) (State.panelRecord_frame _ _ _ _ _ _).kept
      · simp only [List.length_append, List.length_cons, List.length_nil]; omega
      · refine fun h => nodup_append_key h (fun a ha he => hno ?_)
        simpa using ⟨a, ha, he⟩
    · exact State.fu_kept _ s (by exact id) (by exact id) (by exact id)

theorem State.enterFire_latched (o : Addr) (z c : Byte) (s : State) : s.Latched (s.enterFire o z c) := by
  unfold State.enterFire
  split
  · exact .refl s
  · split
    · refine State.Latched.trans ?_ (State.panelRecord_frame _ _ _ _ _ _).latched
      exact { epoch := rfl, fire := fun h => ⟨h, rfl, rfl⟩,
              listed := fun f hf => ⟨f, List.mem_append_left _ hf, rfl, rfl, rfl, id⟩ }
    · exact .of_eq rfl rfl rfl

theorem State.observationDrawn_frame (s : State) : s.TxFrame s.observationDrawn := by
  unfold State.observationDrawn
  split
  · exact State.drawn_frame s
  · exact .refl s

theorem State.startObservationAt_kept (t : Us) (s : State) : s.Kept (s.startObservationAt t) :=
  (State.det_kept _ s (by exact fun h => { h with })).trans (State.observationDrawn_frame _).kept

theorem State.startObservationAt_latched (t : Us) (s : State) : s.Latched (s.startObservationAt t) :=
  State.Latched.trans (t := { s with det := { s.det with observation := some (t + s.observationTime) } })
    { State.Listed.of_eq rfl rfl with fire := fun h => ⟨h, rfl, rfl⟩ } (State.observationDrawn_frame _).latched

theorem State.takeProfile_kept (p : Profile) (s : State) : s.Kept (s.takeProfile p) :=
  (State.det_kept _ s (by exact fun h => { h with })).trans
    ((State.requestObservation_frame _).fault.trans (State.panelRecord_frame _ _ _ _ _ _)).kept

theorem State.takeProfile_latched (p : Profile) (s : State) : s.Latched (s.takeProfile p) :=
  State.Latched.trans
    (t := { s with det := { s.det with
      profile := p, serviceLimit := if p = Profile.service then s.after (seconds 14400) else none } })
    { State.Listed.of_eq rfl rfl with fire := fun h => ⟨h, rfl, rfl⟩ }
    ((State.requestObservation_frame _).fault.trans (State.panelRecord_frame _ _ _ _ _ _)).latched

theorem State.profileRequest_kept (p : Profile) (s : State) : s.Kept (s.profileRequest p) := by
  unfold State.profileRequest
  split
  · split
    · split
      · exact State.det_kept _ s (by exact fun h => { h with })
      · exact State.det_kept _ s (by exact fun h => { h with })
    · split
      · split
        · exact State.det_kept _ s (by exact fun h => { h with })
        · exact .refl s
      · exact State.takeProfile_kept p s
  · exact .refl s

theorem State.profileRequest_latched (p : Profile) (s : State) : s.Latched (s.profileRequest p) := by
  unfold State.profileRequest
  split
  · split
    · split
      · exact { State.Listed.of_eq rfl rfl with fire := fun h => ⟨h, rfl, rfl⟩ }
      · exact { State.Listed.of_eq rfl rfl with fire := fun h => ⟨h, rfl, rfl⟩ }
    · split
      · split
        · exact { State.Listed.of_eq rfl rfl with fire := fun h => ⟨h, rfl, rfl⟩ }
        · exact .refl s
      · exact State.takeProfile_latched p s
  · exact .refl s

theorem State.takePending_kept (s : State) : s.Kept s.takePending := by
  unfold State.takePending
  split
  · exact (State.det_kept _ s (by exact fun h => { h with })).trans (State.takeProfile_kept _ _)
  · exact .refl s

theorem State.takePending_latched (s : State) : s.Latched s.takePending := by
  unfold State.takePending
  split
  · refine State.Latched.trans ?_ (State.takeProfile_latched _ _)
    exact { State.Listed.of_eq rfl rfl with fire := fun h => ⟨h, rfl, rfl⟩ }
  · exact .refl s

theorem State.serviceEnded_kept (s : State) : s.Kept s.serviceEnded := by
  unfold State.serviceEnded
  split
  · exact .refl s
  · split
    · exact State.det_kept _ s (by exact fun h => { h with })
    · exact State.takeProfile_kept _ s

theorem State.serviceEnded_latched (s : State) : s.Latched s.serviceEnded := by
  unfold State.serviceEnded
  split
  · exact .refl s
  · split
    · exact { State.Listed.of_eq rfl rfl with fire := fun h => ⟨h, rfl, rfl⟩ }
    · exact State.takeProfile_latched _ s

theorem State.setDetState_kept (st : DetState) (s : State) : s.Kept (s.setDetState st) :=
  State.det_kept _ s (fun h => { h with hyst := by simp, sat := by simp })

theorem State.setDetState_listed (st : DetState) (s : State) : s.Listed (s.setDetState st) := .of_eq rfl rfl

theorem State.announceState_kept (s : State) : s.Kept s.announceState :=
  (State.startObservationAt_kept _ s).trans (State.requestObservation_frame _).kept

theorem State.announceState_latched (s : State) : s.Latched s.announceState :=
  (State.startObservationAt_latched _ s).trans (State.requestObservation_frame _).latched

theorem State.changeState_kept (st : DetState) (s : State) : s.Kept (s.changeState st) := by
  unfold State.changeState
  dsimp only
  refine State.Kept.trans ?_ (State.announceState_kept _)
  split
  · exact (State.setDetState_kept st s).trans (State.takePending_kept _)
  · exact State.setDetState_kept st s

theorem State.changeState_listed (st : DetState) (s : State) : s.Listed (s.changeState st) := by
  unfold State.changeState
  dsimp only
  refine State.Listed.trans ?_ (State.announceState_latched _).toListed
  split
  · exact (State.setDetState_listed st s).trans (State.takePending_latched _).toListed
  · exact State.setDetState_listed st s

theorem State.declare_kept (c : FireCause) (s : State) : s.Kept (s.declare c) := by
  refine State.Kept.trans (State.Kept.trans (t := { s with det := { s.det with
      cause := some c, evidence := some s.ev.e, refresh := s.after (seconds 30) } }) ?_ (State.enterFire_kept _ _ _ _))
    (State.askFire_frame _ _ _).kept
  exact { State.Kept.refl s with
    sc := .refl _
    ranges := fun r => { r with det := { r.det with evidence := r.ev.e } }
    keys := fun k => { k with } }

theorem State.declare_listed (c : FireCause) (s : State) : s.Listed (s.declare c) :=
  State.Listed.trans
    (t := { s with det := { s.det with
      cause := some c, evidence := some s.ev.e, refresh := s.after (seconds 30) } })
    (.of_eq rfl rfl)
    ((State.enterFire_latched _ _ _ _).toListed.trans (State.askFire_frame _ _ _).latched.toListed)

theorem State.enterFireState_kept (c : FireCause) (s : State) : s.Kept (s.enterFireState c) := by
  unfold State.enterFireState
  dsimp only
  refine State.Kept.trans (State.Kept.trans ?_ (State.declare_kept _ _)) (State.announceState_kept _)
  split
  · exact (State.setDetState_kept _ s).trans (State.takePending_kept _)
  · exact State.setDetState_kept _ s

theorem State.enterFireState_listed (c : FireCause) (s : State) : s.Listed (s.enterFireState c) := by
  unfold State.enterFireState
  dsimp only
  refine State.Listed.trans (State.Listed.trans ?_ (State.declare_listed _ _)) (State.announceState_latched _).toListed
  split
  · exact (State.setDetState_listed _ s).trans (State.takePending_latched _).toListed
  · exact State.setDetState_listed _ s

/-- A change of state forgets the counts an evaluation has just made (R43, R47). -/
theorem State.setDetState_verifyCounts (st : DetState) (s : State) :
    State.setDetState st s.verifyCounts = State.setDetState st s := by
  simp only [State.setDetState, State.verifyCounts, State.ms]

theorem State.changeState_verifyCounts (st : DetState) (s : State) : s.verifyCounts.changeState st = s.changeState st := by
  have h : s.verifyCounts.det.state = s.det.state := by simp only [State.verifyCounts]
  unfold State.changeState
  dsimp only
  rw [State.setDetState_verifyCounts, h]

theorem State.enterFireState_verifyCounts (c : FireCause) (s : State) :
    s.verifyCounts.enterFireState c = s.enterFireState c := by
  have h : s.verifyCounts.det.state = s.det.state := by simp only [State.verifyCounts]
  unfold State.enterFireState
  dsimp only
  rw [State.setDetState_verifyCounts, h]

theorem State.watchRule_kept (s : State) : s.Kept s.watchRule := by
  unfold State.watchRule
  dsimp only
  split
  · exact State.changeState_kept _ s
  · split
    · exact State.changeState_kept _ s
    · exact State.det_kept _ s (fun h => { h with hyst := by simp only; omega })

theorem State.watchRule_listed (s : State) : s.Listed s.watchRule := by
  unfold State.watchRule
  dsimp only
  split
  · exact State.changeState_listed _ s
  · split
    · exact State.changeState_listed _ s
    · exact .of_eq rfl rfl

theorem State.verifyRule_kept (s : State) : s.Kept s.verifyRule := by
  unfold State.verifyRule
  dsimp only
  split
  · rw [State.enterFireState_verifyCounts]; exact State.enterFireState_kept _ s
  · rename_i hf
    split
    · rw [State.changeState_verifyCounts]; exact State.changeState_kept _ s
    · rename_i hh
      refine State.det_kept _ s (fun h => { h with hyst := ?_, sat := ?_ })
      · have : s.verifyCounts.det.hyst ≤ 3 := by omega
        exact this
      · have : ¬ 8 ≤ s.verifyCounts.det.sat := by
          intro h8; exact hf (by simp [State.verifyFires, h8])
        have : s.verifyCounts.det.sat ≤ 8 := by omega
        exact this

theorem State.verifyRule_listed (s : State) : s.Listed s.verifyRule := by
  unfold State.verifyRule
  dsimp only
  split
  · rw [State.enterFireState_verifyCounts]; exact State.enterFireState_listed _ s
  · split
    · rw [State.changeState_verifyCounts]; exact State.changeState_listed _ s
    · exact .of_eq (by simp only [State.verifyCounts]) (by simp only [State.verifyCounts])

theorem State.transitions_kept (theta : Option Int) (s : State) : s.Kept (s.transitions theta) := by
  unfold State.transitions
  split
  · exact State.enterFireState_kept _ s
  · split
    · split
      · exact State.changeState_kept _ s
      · exact .refl s
    · exact State.watchRule_kept s
    · exact State.verifyRule_kept s
    · exact .refl s

theorem State.transitions_latched (theta : Option Int) (s : State) : s.Latched (s.transitions theta) := by
  unfold State.transitions
  split
  · rename_i h; exact (State.enterFireState_listed _ s).latched h.1
  · split
    · rename_i h
      split
      · exact (State.changeState_listed _ s).latched (by simp [h])
      · exact .refl s
    · rename_i h; exact (State.watchRule_listed s).latched (by simp [h])
    · rename_i h; exact (State.verifyRule_listed s).latched (by simp [h])
    · exact .refl s

theorem State.evaluate_kept (set : SampleSet) (s : State) (hp : ∀ x ∈ set.heat, x.status = heatStatusOf x.t) :
    s.Kept (s.evaluate set) := by
  unfold State.evaluate
  dsimp only
  have h := ((State.ev_kept _ s (fun r => Evidence.figures_range s.cfg set r hp)).trans (State.transitions_kept set.computedTheta _)).trans
    (State.ev_kept _ _ (Evidence.baselineStep_range s.det.state set.smoke))
  split
  · exact h.trans (State.raiseOwn_frame _ _).kept
  · exact h

theorem State.evaluate_latched (set : SampleSet) (s : State) : s.Latched (s.evaluate set) := by
  unfold State.evaluate
  dsimp only
  have h := ((State.ev_latched (s.ev.figures s.cfg set) s).trans (State.transitions_latched set.computedTheta _)).trans
    (State.ev_latched (Evidence.baselineStep s.det.state set.smoke
      (State.transitions set.computedTheta { s with ev := s.ev.figures s.cfg set }).ev).2 _)
  split
  · exact h.trans (State.raiseOwn_frame _ _).latched
  · exact h

theorem State.refreshFire_frame (s : State) : s.TxFrame s.refreshFire := by
  unfold State.refreshFire
  split
  · exact State.askFire_frame _ _ s
  · exact .refl s

theorem State.resetNotice_kept (s : State) : s.Kept s.resetNotice := by
  have h1 : s.Kept { s with det := { s.det with
      state := .quiet, verifyStart := none, hyst := 0, sat := 0, refresh := none, cause := none, evidence := none } } :=
    State.det_kept _ s (fun _ => ⟨by simp, by simp, by simp⟩)
  have h2 : ∀ b : Prop, [Decidable b] → ∀ t : State, s.Kept t → s.Kept (if b then t.takePending else t) := by
    intro b _ t h
    split
    · exact h.trans (State.takePending_kept _)
    · exact h
  unfold State.resetNotice
  dsimp only
  split
  · exact h2 _ _ h1
  · exact (h2 _ _ h1).trans (State.announceState_kept _)

theorem State.resetNotice_listed (s : State) : s.Listed s.resetNotice := by
  have h1 : s.Listed { s with det := { s.det with
      state := .quiet, verifyStart := none, hyst := 0, sat := 0, refresh := none, cause := none, evidence := none } } :=
    .of_eq rfl rfl
  have h2 : ∀ b : Prop, [Decidable b] → ∀ t : State, s.Listed t → s.Listed (if b then t.takePending else t) := by
    intro b _ t h
    split
    · exact h.trans (State.takePending_latched _).toListed
    · exact h
  unfold State.resetNotice
  dsimp only
  split
  · exact h2 _ _ h1
  · exact (h2 _ _ h1).trans (State.announceState_latched _).toListed

/-! ## The flood unit -/

theorem State.silenceList_kept (s : State) : s.Kept s.silenceList :=
  State.fu_kept _ s (by simp) (by exact nodup_map_of_keys (fun _ _ => rfl)) (by exact id)

theorem State.silence_kept (o : Addr) (z : Byte) (s : State) : s.Kept (s.silence o z) :=
  (State.silenceList_kept s).trans (State.panelRecord_frame _ _ _ _ _ _).kept

theorem State.silence_latched (o : Addr) (z : Byte) (s : State) : s.Latched (s.silence o z) := by
  refine State.Latched.trans (t := s.silenceList) ?_ (State.panelRecord_frame _ _ _ _ _ _).latched
  exact { epoch := rfl, fire := fun h => ⟨h, rfl, rfl⟩
          listed := fun f hf => ⟨_, List.mem_map.2 ⟨f, hf, rfl⟩, rfl, rfl, rfl, fun _ => rfl⟩ }

theorem State.purgeQueued_frame (e : BitVec 8) (s : State) : s.TxFrame (s.purgeQueued e).1 := State.tu_frame _ s

theorem State.purgeCurrent_frame (e : BitVec 8) (s : State) : s.TxFrame (s.purgeCurrent e).1 := by
  unfold State.purgeCurrent
  split
  · split
    · exact ((State.stopOperation_frame s).trans (State.tu_frame _ _)).trans (State.stopWatchOf_frame _ _)
    · exact .refl s
  · exact .refl s

theorem State.purgeWaits_frame (e : BitVec 8) (s : State) : s.TxFrame (s.purgeWaits e).1 :=
  State.TxFrame.foldl (fun t b => State.dropRelayWait_frame b t) _ s

theorem State.purgePending_frame (e : BitVec 8) (s : State) : s.TxFrame (s.purgePending e) :=
  State.fu_frame _ s rfl rfl rfl rfl rfl id

theorem State.purge_frame (e : BitVec 8) (s : State) : s.TxFrame (s.purge e) :=
  ((((((State.purgeQueued_frame e s).trans (State.purgeCurrent_frame e _)).trans (State.purgeWaits_frame e _)).trans
    (State.purgePending_frame e _)).trans (State.freeAll_frame _ _)).trans (State.select_frame _)).trans
    (State.startWatch_frame _)

theorem State.resetLines_kept (e : BitVec 8) (o : Addr) (z : Byte) (s : State) : s.Kept (s.resetLines e o z) := by
  unfold State.resetLines
  split
  · exact (State.lu_kept _ s (by exact fun h => ⟨h.1, h.2.1, by simp⟩) (by exact fun _ => List.nodup_nil)).trans
      (State.panelRecord_frame _ _ _ _ _ _).kept
  · exact .refl s

theorem State.resetLines_latched (e : BitVec 8) (o : Addr) (z : Byte) (s : State) : s.Latched (s.resetLines e o z) := by
  unfold State.resetLines
  split
  · exact (State.lu_latched _ s).trans (State.panelRecord_frame _ _ _ _ _ _).latched
  · exact .refl s

theorem State.resetActions_kept (e : BitVec 8) (o : Addr) (z : Byte) (s : State) : s.Kept (s.resetActions e o z) :=
  ((((State.fu_kept _ s (by simp) (by exact fun _ => List.nodup_nil) (by exact id)).trans (State.resetNotice_kept _)).trans
    (State.purge_frame e _).kept).trans (State.faultMarksCleared_frame _).kept).trans (State.resetLines_kept _ _ _ _)

/-- The RESET actions leave the station in their own epoch (R146). -/
theorem State.resetActions_epoch (e : BitVec 8) (o : Addr) (z : Byte) (s : State) : (s.resetActions e o z).fu.epoch = e :=
  (State.resetLines_latched e o z _).epoch.trans <| (State.faultMarksCleared_frame _).epoch.trans <|
    (State.purge_frame e _).epoch.trans (State.resetNotice_listed _).epoch

theorem State.endRelayWait_frame (b : Fin 8) (s : State) : s.TxFrame (s.endRelayWait b) :=
  State.fu_frame _ s rfl rfl rfl rfl rfl id

theorem State.relayOffer_frame (b : Fin 8) (s : State) : s.TxFrame (s.relayOffer b) := by
  unfold State.relayOffer
  split
  · exact .refl s
  · split
    · exact (State.dropRelayWait_frame _ s).trans (State.accept_frame _ _ _ _)
    · split
      · split
        · exact .refl s
        · exact State.joinWaiters_frame _ s
      · exact ((State.dropRelayWait_frame _ s).trans (State.count_frame _ _)).trans (State.freeAll_frame _ _)

theorem State.relay_frame (b : Fin 8) (s : State) : s.TxFrame (s.relay b) := by
  unfold State.relay
  dsimp only
  split
  · have h : ∀ ws : List RelayWait, ∀ o : Addr, ∀ t : State, s.TxFrame t →
        s.TxFrame { t with fu := { t.fu with relayWaits := ws, seen := seenPin o t.fu.seen } } :=
      fun ws o t ht => ht.trans (State.fu_frame _ t rfl rfl rfl rfl rfl seenPin_keys)
    split
    · exact (((h _ _ _ (State.setBuf_frame _ _ s)).trans (State.drawn_frame _)).trans
        (State.endRelayWait_frame _ _)).trans (State.relayOffer_frame _ _)
    · exact (h _ _ _ (State.setBuf_frame _ _ s)).trans (State.drawn_frame _)
  · exact State.freeAll_frame _ s

theorem State.copyHeard_frame (o : Addr) (run seq : BitVec 8) (s : State) : s.TxFrame (s.copyHeard o run seq) := by
  unfold State.copyHeard
  split
  · exact .refl s
  · split
    · exact ((State.dropRelayWait_frame _ s).trans (State.count_frame _ _)).trans (State.freeAll_frame _ _)
    · exact State.fu_frame _ s rfl rfl rfl rfl rfl id

theorem State.remoteItem_kept (o : Addr) (z : Byte) (i : Byte × Addr × Byte) (s : State) :
    s.Kept (s.remoteItem o z i) := by
  refine State.Kept.trans (State.lu_kept _ s ?_ ?_) (State.panelRecord_frame _ _ _ _ _ _).kept
  · intro h
    split
    · split
      · exact h
      · split
        · exact ⟨h.1, h.2.1, by simp only [List.length_append, List.length_cons, List.length_nil]; omega⟩
        · exact ⟨h.1, h.2.1, h.2.2⟩
    · exact ⟨h.1, h.2.1, Nat.le_trans (List.length_erase_le) h.2.2⟩
  · intro h
    split
    · split
      · exact h
      · rename_i hc
        split
        · refine List.nodup_append.2 ⟨h, by simp, ?_⟩
          intro a ha b hb hab
          simp only [List.mem_cons, List.not_mem_nil, or_false] at hb
          subst hb; subst hab
          exact hc (List.contains_iff_mem.2 ha)
        · exact h
    · exact h.erase _

theorem State.remoteItem_latched (o : Addr) (z : Byte) (i : Byte × Addr × Byte) (s : State) :
    s.Latched (s.remoteItem o z i) :=
  (State.lu_latched _ s).trans (State.panelRecord_frame _ _ _ _ _ _).latched

/-- A fold of steps that keep everything keeps everything. -/
theorem State.Kept.foldl {α : Type} {f : State → α → State} (l : List α) (h : ∀ a ∈ l, ∀ s : State, s.Kept (f s a))
    (s : State) : s.Kept (l.foldl f s) := by
  induction l generalizing s with
  | nil => exact .refl s
  | cons a l ih =>
    exact (h a List.mem_cons_self s).trans (ih (fun b hb => h b (List.mem_cons_of_mem _ hb)) _)

theorem State.Latched.foldl {α : Type} {f : State → α → State} (l : List α)
    (h : ∀ a ∈ l, ∀ s : State, s.Latched (f s a)) (s : State) : s.Latched (l.foldl f s) := by
  induction l generalizing s with
  | nil => exact .refl s
  | cons a l ih =>
    exact (h a List.mem_cons_self s).trans (ih (fun b hb => h b (List.mem_cons_of_mem _ hb)) _)

theorem State.kindAction_kept (f : List Byte) (s : State) : s.Kept (s.kindAction f) := by
  unfold State.kindAction
  split
  · exact State.enterFire_kept _ _ _ s
  · exact State.silence_kept _ _ s
  · exact State.profileRequest_kept _ s
  · split
    · exact State.Kept.foldl _ (fun i _ t => State.remoteItem_kept _ _ i t) s
    · exact .refl s
  · exact .refl s

theorem State.kindAction_latched (f : List Byte) (s : State) : s.Latched (s.kindAction f) := by
  unfold State.kindAction
  split
  · exact State.enterFire_latched _ _ _ s
  · exact State.silence_latched _ _ s
  · exact State.profileRequest_latched _ s
  · split
    · exact State.Latched.foldl _ (fun i _ t => State.remoteItem_latched _ _ i t) s
    · exact .refl s
  · exact .refl s

theorem State.acceptFlood_kept (b : Fin 8) (s : State) : s.Kept (s.acceptFlood b) := by
  unfold State.acceptFlood
  dsimp only
  split
  · split
    · exact ((State.resetActions_kept _ _ _ s).trans (State.kindAction_kept _ _)).trans (State.relay_frame _ _).kept
    · split
      · exact ((State.count_frame _ s).trans (State.freeAll_frame _ _)).kept
      · exact (State.kindAction_kept _ s).trans (State.relay_frame _ _).kept
  · exact (State.kindAction_kept _ s).trans (State.relay_frame _ _).kept

/-- A window comparison that says newer tells two values apart (0.5.5). -/
theorem newer_ne {a b : BitVec 8} (h : newer a b = true) : a ≠ b := by
  rintro rfl
  simp [newer] at h

/-- An accepted flood either leaves what is latched, or brings another epoch (R142). -/
theorem State.acceptFlood_latched (b : Fin 8) (s : State) :
    s.Latched (s.acceptFlood b) ∨ (s.acceptFlood b).fu.epoch ≠ s.fu.epoch := by
  unfold State.acceptFlood
  dsimp only
  split
  · split
    · rename_i h
      refine .inr ?_
      rw [(State.relay_frame _ _).epoch, (State.kindAction_latched _ _).epoch, State.resetActions_epoch]
      exact newer_ne h
    · split
      · exact .inl ((State.count_frame _ s).trans (State.freeAll_frame _ _)).latched
      · exact .inl ((State.kindAction_latched _ s).trans (State.relay_frame _ _).latched)
  · exact .inl ((State.kindAction_latched _ s).trans (State.relay_frame _ _).latched)

theorem State.floodDispatch_kept (b : Fin 8) (s : State) : s.Kept (s.floodDispatch b) := by
  unfold State.floodDispatch
  dsimp only
  have h : s.Kept { s with fu := { s.fu with seen := (seenTake s.ms (Frame.origin (s.buf b).frame)
      (Frame.run (s.buf b).frame) (Frame.seq (s.buf b).frame) s.fu.seen).2 } } :=
    State.fu_kept _ s (by exact id) (by exact id) (by exact seenTake_keys)
  split
  · exact h.trans (State.acceptFlood_kept _ _)
  · exact h.trans (((State.count_frame _ _).trans (State.copyHeard_frame _ _ _ _)).trans (State.freeAll_frame _ _)).kept
  · exact h.trans ((State.count_frame _ _).trans (State.freeAll_frame _ _)).kept

theorem State.floodDispatch_latched (b : Fin 8) (s : State) :
    s.Latched (s.floodDispatch b) ∨ (s.floodDispatch b).fu.epoch ≠ s.fu.epoch := by
  unfold State.floodDispatch
  dsimp only
  have h : s.Latched { s with fu := { s.fu with seen := (seenTake s.ms (Frame.origin (s.buf b).frame)
      (Frame.run (s.buf b).frame) (Frame.seq (s.buf b).frame) s.fu.seen).2 } } :=
    .of_eq rfl rfl rfl
  split
  · rcases State.acceptFlood_latched b { s with fu := { s.fu with seen := (seenTake s.ms (Frame.origin (s.buf b).frame)
      (Frame.run (s.buf b).frame) (Frame.seq (s.buf b).frame) s.fu.seen).2 } } with k | k
    · exact .inl (h.trans k)
    · exact .inr k
  · exact .inl (h.trans
      (((State.count_frame _ _).trans (State.copyHeard_frame _ _ _ _)).trans (State.freeAll_frame _ _)).latched)
  · exact .inl (h.trans ((State.count_frame _ _).trans (State.freeAll_frame _ _)).latched)

theorem State.silencePress_kept (s : State) : s.Kept s.silencePress :=
  (State.silence_kept _ _ s).trans (State.askSilence_frame _).kept

theorem State.silencePress_latched (s : State) : s.Latched s.silencePress :=
  (State.silence_latched _ _ s).trans (State.askSilence_frame _).latched

theorem State.resetPress_kept (s : State) : s.Kept s.resetPress :=
  (State.resetActions_kept _ _ _ s).trans (State.askReset_frame _).kept

/-- A reset press brings another epoch (R153). -/
theorem State.resetPress_epoch (s : State) : s.resetPress.fu.epoch = s.fu.epoch + 1 := by
  unfold State.resetPress
  rw [(State.askReset_frame _).epoch, State.resetActions_epoch]

theorem State.profileChange_kept (p : Profile) (s : State) : s.Kept (s.profileChange p) :=
  ((State.askProfile_frame p s).kept.trans (State.profileRequest_kept _ _)).trans
    (State.fu_kept _ _ (by exact id) (by exact id) (by exact id))

/-- The profile refresh timer is no part of what is latched. -/
theorem State.profileRefreshTimer_latched (x : Timer) (s : State) :
    s.Latched { s with fu := { s.fu with profileRefresh := x } } := .of_eq rfl rfl rfl

theorem State.profileChange_latched (p : Profile) (s : State) : s.Latched (s.profileChange p) := by
  have h := (State.askProfile_frame p s).latched.trans (State.profileRequest_latched p _)
  unfold State.profileChange
  dsimp only
  generalize (s.askProfile p).profileRequest p = t at h ⊢
  exact h.trans (State.profileRefreshTimer_latched _ _)

theorem State.profileRefreshed_kept (s : State) : s.Kept s.profileRefreshed :=
  (State.askProfile_frame _ s).kept.trans (State.profileRequest_kept _ _)

theorem State.profileRefreshed_latched (s : State) : s.Latched s.profileRefreshed :=
  (State.askProfile_frame _ s).latched.trans (State.profileRequest_latched _ _)

end Sys2Proof.Machine
end

