-- ==== Sys2Proof/Laws/Measurement.lean ====
section
/-! SUPPORT. The timeline of a scan: an optical conversion takes the last 60 µs of its emitter's pulse whatever the steps
before it took, and the two emitters are never lit at once. -/
namespace Sys2Proof.Machine

/-- The start of the IR pulse of a full scan: after the front-end start and the dark conversion with its overrun (R3). -/
def irPulseStart (lag : Nat → Us) : Us := 130 + lag 0 + lag 2

/-- The start of the blue pulse: after the IR pulse, its conversion's overrun and the recovery (R3). -/
def bluePulseStart (lag : Nat → Us) : Us := irPulseStart lag + 300 + lag 5

/-- The optical conversions of a full scan, each the last 60 µs of a pulse (R3). -/
theorem conversions_multi (lag : Nat → Us) :
    (scanTimeline lag .multi).filter (fun p => decide (p.step = .conversion .ir)) =
      [{ step := .conversion .ir, start := irPulseStart lag + 140, stop := irPulseStart lag + 200 }] ∧
    (scanTimeline lag .multi).filter (fun p => decide (p.step = .conversion .blue)) =
      [{ step := .conversion .blue, start := bluePulseStart lag + 140, stop := bluePulseStart lag + 200 }] := by
  simp [scanTimeline, scanSteps, scanGroup, Channel.steps, slotsFrom, stepTime, ScanStep.mayLag, irPulseStart,
    bluePulseStart]
  unfold Us at *
  omega

/-- The emitters of a full scan are lit for the 200 µs of their pulses (R3, R4). -/
theorem pulsed_multi (lag : Nat → Us) (t : Us) :
    (pulsed (scanTimeline lag .multi) .ir t = true ↔ irPulseStart lag ≤ t ∧ t < irPulseStart lag + 200) ∧
    (pulsed (scanTimeline lag .multi) .blue t = true ↔ bluePulseStart lag ≤ t ∧ t < bluePulseStart lag + 200) := by
  simp [pulsed, scanTimeline, scanSteps, scanGroup, Channel.steps, slotsFrom, stepTime, ScanStep.mayLag, irPulseStart,
    bluePulseStart]
  unfold Us at *
  omega

/-- A scan of another role lights no emitter (R2). -/
theorem pulsed_other_roles (lag : Nat → Us) (role : Role) (c : Channel) (t : Us) (h : role ≠ .multi) :
    pulsed (scanTimeline lag role) c t = false := by
  cases role <;> simp [pulsed, scanTimeline, scanSteps, scanGroup, Channel.steps, slotsFrom] at h ⊢

/-- The emitters are never lit at once (R4). -/
theorem pulsed_not_both (lag : Nat → Us) (role : Role) (t : Us) :
    ¬ (pulsed (scanTimeline lag role) .ir t = true ∧ pulsed (scanTimeline lag role) .blue t = true) := by
  by_cases h : role = .multi
  · subst h
    rw [(pulsed_multi lag t).1, (pulsed_multi lag t).2]
    unfold bluePulseStart Us
    omega
  · simp [pulsed_other_roles lag role _ t h]

/-- The IR conversion runs with its emitter lit, whatever the lags (R3); so does the blue one. -/
theorem conversion_in_pulse (lag : Nat → Us) (c : Channel) (p : ScanSlot) (t : Us) (hc : c = .ir ∨ c = .blue)
    (hp : p ∈ scanTimeline lag .multi) (hs : p.step = .conversion c) (h1 : p.start ≤ t) (h2 : t < p.stop) :
    pulsed (scanTimeline lag .multi) c t = true := by
  have hf : p ∈ (scanTimeline lag .multi).filter (fun p => decide (p.step = .conversion c)) := by simp [hp, hs]
  rcases hc with rfl | rfl
  · rw [(conversions_multi lag).1, List.mem_singleton] at hf
    subst hf
    rw [(pulsed_multi lag t).1]
    unfold Us at *
    simp at h1 h2
    omega
  · rw [(conversions_multi lag).2, List.mem_singleton] at hf
    subst hf
    rw [(pulsed_multi lag t).2]
    unfold Us at *
    simp at h1 h2
    omega

end Sys2Proof.Machine
end

