-- ==== Sys2Proof/Laws/Work.lean ====
section
/-! SUPPORT. What the reception, the start-up controller, the scans, the schedule and the work of the timers keep, with one
lemma for each operation, and what follows every event. -/
namespace Sys2Proof.Machine

/-! ## The neighbour table -/

theorem Neighbour.report68_addr (ms : Ms) (o : Option (Byte × Nat × Byte)) (n : Neighbour) :
    (Neighbour.report68 ms o n).addr = n.addr := by
  unfold Neighbour.report68
  split
  · rfl
  · split <;> rfl

theorem Neighbour.report68_range (ms : Ms) (o : Option (Byte × Nat × Byte)) {n : Neighbour} (h : n.InRange) :
    (Neighbour.report68 ms o n).InRange := by
  unfold Neighbour.report68
  split
  · exact h
  · split
    · exact h
    · refine { h with report := ?_ }
      intro r hr
      obtain rfl := Option.some.inj hr
      simp only; omega

theorem Neighbour.heard_addr (now : Us) (ms limit : Ms) (p : SenderPart) (n : Neighbour) :
    (n.heard now ms limit p).addr = n.addr := Neighbour.report68_addr _ _ _

/-- The link average stays within what the levels can bring (R66). -/
theorem linkAverage_range {avg level : Int} (ha : -508 ≤ avg ∧ avg ≤ 0) (hl : -127 ≤ level ∧ level ≤ 0) :
    -508 ≤ linkAverage avg level ∧ linkAverage avg level ≤ 0 := by
  unfold linkAverage
  omega

theorem Neighbour.heard_range (now : Us) (ms limit : Ms) (p : SenderPart) {n : Neighbour} (h : n.InRange)
    (hl : -127 ≤ p.level ∧ p.level ≤ 0) : (n.heard now ms limit p).InRange :=
  Neighbour.report68_range _ _ { h with avg := linkAverage_range h.avg hl, frames := by simp only; omega }

theorem Neighbour.admitted_addr (now : Us) (ms limit : Ms) (p : SenderPart) :
    (Neighbour.admitted now ms limit p).addr = p.addr := Neighbour.report68_addr _ _ _

theorem Neighbour.admitted_range (now : Us) (ms limit : Ms) (p : SenderPart) (hl : -127 ≤ p.level ∧ p.level ≤ 0) :
    (Neighbour.admitted now ms limit p).InRange :=
  Neighbour.report68_range _ _ ⟨by simp only; omega, by simp, by simp⟩

/-- An eviction candidate is an entry of the table. -/
theorem evictionCandidate_mem {ms : Ms} {level : Int} {nt : List Neighbour} {n : Neighbour}
    (h : evictionCandidate ms level nt = some n) : n ∈ nt := by
  unfold evictionCandidate at h
  dsimp only at h
  split at h
  · rename_i hm
    cases h
    exact (List.mem_filter.1 (List.mem_filter.1 (leastBy_mem hm)).1).1
  · split at h
    · rename_i hm
      split at h
      · cases h
        exact (List.mem_filter.1 (List.mem_filter.1 (leastBy_mem hm)).1).1
      · cases h
    · cases h

/-- An address without an entry has none in the list. -/
theorem entryOf_none {a : Addr} {nt : List Neighbour} (h : entryOf a nt = none) : ∀ n ∈ nt, n.addr ≠ a := by
  intro n hn he
  have := List.find?_eq_none.1 h n hn
  simp [he] at this

theorem takeSender_length {now : Us} {ms limit : Ms} {p : SenderPart} {nt : List Neighbour} (h : nt.length ≤ 16) :
    (takeSender now ms limit p nt).2.length ≤ 16 := by
  unfold takeSender
  split
  · simpa using h
  · split
    · exact h
    · split
      · simp only [List.length_append, List.length_cons, List.length_nil]; omega
      · split
        · rename_i n hn
          have hlt : (nt.filter (fun m => decide (m.addr ≠ n.addr))).length < nt.length :=
            List.length_filter_lt_length_iff_exists.2 ⟨n, evictionCandidate_mem hn, by simp⟩
          simp only [List.length_append, List.length_cons, List.length_nil]; omega
        · exact h

theorem takeSender_range {now : Us} {ms limit : Ms} {p : SenderPart} {nt : List Neighbour}
    (hl : -127 ≤ p.level ∧ p.level ≤ 0) (h : ∀ n ∈ nt, n.InRange) : ∀ n ∈ (takeSender now ms limit p nt).2, n.InRange := by
  unfold takeSender
  split
  · intro n hn
    obtain ⟨m, hm, rfl⟩ := List.mem_map.1 hn
    split
    · exact Neighbour.heard_range _ _ _ _ (h m hm) hl
    · exact h m hm
  · split
    · exact h
    · split
      · intro n hn
        rcases List.mem_append.1 hn with hn | hn
        · exact h n hn
        · obtain rfl := List.mem_singleton.1 hn
          exact Neighbour.admitted_range _ _ _ _ hl
      · split
        · intro n hn
          rcases List.mem_append.1 hn with hn | hn
          · exact h n (List.mem_filter.1 hn).1
          · obtain rfl := List.mem_singleton.1 hn
            exact Neighbour.admitted_range _ _ _ _ hl
        · exact h

theorem takeSender_keys {now : Us} {ms limit : Ms} {p : SenderPart} {nt : List Neighbour}
    (h : (nt.map (·.addr)).Nodup) : ((takeSender now ms limit p nt).2.map (·.addr)).Nodup := by
  unfold takeSender
  split
  · refine nodup_map_of_keys (fun m _ => ?_) h
    split
    · exact Neighbour.heard_addr _ _ _ _ _
    · rfl
  · rename_i hnone
    have absent := entryOf_none hnone
    split
    · exact h
    · split
      · exact nodup_append_key h (fun m hm => by rw [Neighbour.admitted_addr]; exact absent m hm)
      · split
        · exact nodup_append_key (nodup_filter_of_keys _ h)
            (fun m hm => by rw [Neighbour.admitted_addr]; exact absent m (List.mem_filter.1 hm).1)
        · exact h

/-- Entries changed in place, their addresses and ranges kept. -/
theorem State.ntMap_kept (f : Neighbour → Neighbour) (s : State) (h1 : ∀ n, (f n).addr = n.addr)
    (h2 : ∀ n : Neighbour, n.InRange → (f n).InRange) : s.Kept { s with nt := s.nt.map f } :=
  State.nt_kept _ s (by simp)
    (by
      intro h n hn
      obtain ⟨m, hm, rfl⟩ := List.mem_map.1 hn
      exact h2 m (h m hm))
    (nodup_map_of_keys (fun n _ => h1 n))

theorem State.nt_latched (nt : List Neighbour) (s : State) : s.Latched { s with nt := nt } := .of_eq rfl rfl rfl

/-! ## Reception and dispatch -/

/-- No frame is being taken: there is no level to bound. -/
theorem Radio.inRange_of_none {r : Radio} (h : r.reception = none) : r.InRange := by
  unfold Radio.InRange
  rw [h]
  intro x hx
  cases hx

theorem State.releaseRx_frame (s : State) : s.TxFrame s.releaseRx :=
  State.radio_frame _ s (fun _ => Radio.inRange_of_none rfl)

theorem State.enterReceiving_frame (s : State) : s.TxFrame s.enterReceiving :=
  State.radio_frame _ s (fun _ => Radio.inRange_of_none rfl)

theorem State.grant_frame (s : State) : s.TxFrame s.grant :=
  ((State.radio_frame { s.radio with owner := .tu, rx := .off } s (by exact id)).trans
    (State.tu_frame { s.tu with phase := .assess, waiting := false } _)).trans (State.startAssessment_frame _ _)

theorem State.request_frame (s : State) : s.FaultFrame s.request := by
  unfold State.request
  split
  · exact (State.tu_frame _ s).fault
  · exact (State.grant_frame s).fault
  · split
    · exact (State.tu_frame _ s).fault
    · exact State.busyAssessment_frame s
  · exact .refl s

theorem State.sample_frame (s : State) : s.TxFrame s.sample := by
  unfold State.sample
  split
  · exact State.radio_frame _ s (by exact id)
  · exact .refl s

theorem State.listChanged_frame (s : State) : s.TxFrame s.listChanged := by
  unfold State.listChanged
  split
  · exact State.takeUp_frame s
  · exact .refl s

theorem State.sampleEnded_frame (level : Int) (s : State) : s.FaultFrame (s.sampleEnded level) := by
  unfold State.sampleEnded
  dsimp only
  split
  · split
    · exact (State.enterReceiving_frame s).fault.trans (State.busyAssessment_frame _)
    · exact (State.enterReceiving_frame s).fault
  · split
    · exact ((State.releaseRx_frame s).trans (State.grant_frame _)).fault
    · exact (State.releaseRx_frame s).fault

/-- The neighbour table's part of a dispatch: the level it is given bounds the link averages (R66). -/
theorem State.takeNeighbour_both (p : SenderPart) (s : State) :
    s.KeptIf (-127 ≤ p.level ∧ p.level ≤ 0) (s.takeNeighbour p) ∧ s.Latched (s.takeNeighbour p) := by
  unfold State.takeNeighbour
  dsimp only
  have k1 : s.KeptIf (-127 ≤ p.level ∧ p.level ≤ 0) { s with
      nt := (takeSender s.now s.ms (supervisionLimit s.cfg.observationPeriod) p s.nt).2 } :=
    { State.Kept.refl s with
      sc := .refl _
      ranges := fun hl r => { r with table := takeSender_length r.table, entries := takeSender_range hl r.entries }
      keys := fun k => { k with table := takeSender_keys k.table } }
  have l1 : s.Latched { s with
      nt := (takeSender s.now s.ms (supervisionLimit s.cfg.observationPeriod) p s.nt).2 } := State.nt_latched _ s
  have sel : ∀ t : State, s.KeptIf (-127 ≤ p.level ∧ p.level ≤ 0) t ∧ s.Latched t → ∀ b : Bool,
      s.KeptIf (-127 ≤ p.level ∧ p.level ≤ 0) (if b = true then t.select else t) ∧
        s.Latched (if b = true then t.select else t) := by
    intro t h b
    split
    · exact ⟨h.1.trans (State.select_frame t).kept.keptIf, h.2.trans (State.select_frame t).latched⟩
    · exact h
  refine sel _ ?_ _
  split
  · exact ⟨k1.trans (State.clear_frame _ _ _).kept.keptIf, l1.trans (State.clear_frame _ _ _).latched⟩
  · exact ⟨k1.trans (State.count_frame _ _).kept.keptIf, l1.trans (State.count_frame _ _).latched⟩
  · exact ⟨k1, l1⟩

theorem State.dispatch_kept (b : Fin 8) (level : Int) (s : State) :
    s.KeptIf (-127 ≤ level ∧ level ≤ 0) (s.dispatch b level) := by
  unfold State.dispatch
  dsimp only
  have h := ((State.moveBuf_frame b .dispatch s).trans (State.count_frame .rxGood _)).kept.keptIf.trans
    (State.takeNeighbour_both (senderPart level (s.buf b).frame) _).1
  split
  · exact h.trans (State.freeAll_frame _ _).kept.keptIf
  · exact h.trans (State.floodDispatch_kept _ _).keptIf

/-- A dispatch either leaves what is latched, or brings another epoch. -/
theorem State.dispatch_latched (b : Fin 8) (level : Int) (s : State) :
    s.Latched (s.dispatch b level) ∨ (s.dispatch b level).fu.epoch ≠ s.fu.epoch := by
  unfold State.dispatch
  dsimp only
  have h := ((State.moveBuf_frame b .dispatch s).trans (State.count_frame .rxGood _)).latched.trans
    (State.takeNeighbour_both (senderPart level (s.buf b).frame) _).2
  split
  · exact .inl (h.trans (State.freeAll_frame _ _).latched)
  · rw [← h.epoch]
    exact (State.floodDispatch_latched _ _).imp_left h.trans

theorem State.frameEnded_kept (b : Fin 8) (level : Int) (taken : Nat) (s : State) :
    s.KeptIf (-127 ≤ level ∧ level ≤ 0) (s.frameEnded b level taken) := by
  unfold State.frameEnded
  dsimp only
  have h := (((State.stopGuard_kept .header s).trans (State.stopGuard_kept .frame _)).trans
    (State.releaseRx_frame _).kept).keptIf (P := -127 ≤ level ∧ level ≤ 0)
  split
  · exact h.trans ((State.count_frame _ _).trans (State.freeAll_frame _ _)).kept.keptIf
  · exact h.trans (State.dispatch_kept _ _ _)

theorem State.frameEnded_latched (b : Fin 8) (level : Int) (taken : Nat) (s : State) :
    s.Latched (s.frameEnded b level taken) ∨ (s.frameEnded b level taken).fu.epoch ≠ s.fu.epoch := by
  unfold State.frameEnded
  dsimp only
  have h := ((State.stopGuard_latched .header s).trans (State.stopGuard_latched .frame _)).trans
    (State.releaseRx_frame _).latched
  split
  · exact .inl (h.trans ((State.count_frame _ _).trans (State.freeAll_frame _ _)).latched)
  · rw [← h.epoch]
    exact (State.dispatch_latched _ _ _).imp_left h.trans

theorem State.discardEnded_kept (s : State) : s.Kept s.discardEnded :=
  ((State.stopGuard_kept .header s).trans (State.stopGuard_kept .frame _)).trans (State.releaseRx_frame _).kept

theorem State.discardEnded_latched (s : State) : s.Latched s.discardEnded :=
  ((State.stopGuard_latched .header s).trans (State.stopGuard_latched .frame _)).trans (State.releaseRx_frame _).latched

/-- The delimiter's level is clamped (R104). -/
theorem State.delimiterRadio_frame (level : Int) (s : State) : s.TxFrame { s with radio := (s.delimiter level).radio } :=
  State.radio_frame _ s (fun _ x hx => by obtain rfl := Option.some.inj hx; simp only; omega)

theorem State.delimiter_kept (level : Int) (s : State) : s.Kept (s.delimiter level) :=
  ((State.delimiterRadio_frame level s).kept.trans (State.startGuard_kept _ _ _)).trans (State.startGuard_kept _ _ _)

theorem State.delimiter_latched (level : Int) (s : State) : s.Latched (s.delimiter level) :=
  ((State.delimiterRadio_frame level s).latched.trans (State.startGuard_latched _ _ _)).trans
    (State.startGuard_latched _ _ _)

/-- The reception in progress replaced by one of the same level. -/
theorem State.setReception_frame {r r' : Reception} {s : State} (hr : s.radio.reception = some r)
    (hl : r'.level = r.level) : s.TxFrame (s.setReception r') :=
  State.radio_frame _ s (fun h x hx => by obtain rfl := Option.some.inj hx; rw [hl]; exact h r hr)

theorem State.kindByte_frame {r : Reception} (header : List Byte) (kind : Byte) {s : State}
    (hr : s.radio.reception = some r) : s.TxFrame (s.kindByte r header kind) := by
  unfold State.kindByte
  dsimp only
  split
  · split
    · exact ((State.setReception_frame hr (by rfl)).trans (State.setBuf_frame _ _ _)).trans (State.recount_frame _)
    · exact (State.setReception_frame hr (by rfl)).trans (State.count_frame _ _)
  · exact (State.setReception_frame hr (by rfl)).trans (State.count_frame _ _)

theorem State.setFrame_frame (b : Fin 8) (f : List Byte) (s : State) : s.TxFrame (s.setFrame b f) :=
  State.setBuf_frame _ _ s

/-- The level of the frame being taken is in range. -/
theorem State.InRange.level {s : State} {r : Reception} (hr : s.radio.reception = some r) (h : s.InRange) :
    -127 ≤ r.level ∧ r.level ≤ 0 := h.radio r hr

theorem State.headerEnd_kept {r : Reception} (rest : List Byte) (len : Byte) {s : State}
    (hr : s.radio.reception = some r) : s.Kept (s.headerEnd r rest len) := by
  unfold State.headerEnd
  dsimp only
  have h := State.stopGuard_kept .header s
  split
  · rename_i b _
    have k : s.Kept (((State.stopGuard .header s).setFrame b (((State.stopGuard .header s).buf b).frame ++ rest)).setReception
        { r with bodyLen := some len }) :=
      h.trans ((State.setFrame_frame _ _ _).trans (State.setReception_frame (r := r) (r' := { r with bodyLen := some len })
        (s := (State.stopGuard .header s).setFrame b (((State.stopGuard .header s).buf b).frame ++ rest)) hr rfl)).kept
    split
    · exact (k.keptIf.trans (State.frameEnded_kept _ _ _ _)).kept (State.InRange.level hr)
    · exact k
  · split
    · exact h.trans (State.discardEnded_kept _)
    · exact h.trans (State.setReception_frame (r := r)
          (r' := { r with latch := r.latch ++ rest, bodyLen := some len }) (s := State.stopGuard .header s) hr rfl).kept

theorem State.headerEnd_latched {r : Reception} (rest : List Byte) (len : Byte) {s : State}
    (hr : s.radio.reception = some r) :
    s.Latched (s.headerEnd r rest len) ∨ (s.headerEnd r rest len).fu.epoch ≠ s.fu.epoch := by
  unfold State.headerEnd
  dsimp only
  have h := State.stopGuard_latched .header s
  split
  · rename_i b _
    have k : s.Latched (((State.stopGuard .header s).setFrame b
        (((State.stopGuard .header s).buf b).frame ++ rest)).setReception { r with bodyLen := some len }) :=
      h.trans ((State.setFrame_frame _ _ _).trans (State.setReception_frame (r := r) (r' := { r with bodyLen := some len })
        (s := (State.stopGuard .header s).setFrame b (((State.stopGuard .header s).buf b).frame ++ rest)) hr rfl)).latched
    split
    · rw [← k.epoch]
      exact (State.frameEnded_latched _ _ _ _).imp_left k.trans
    · exact .inl k
  · split
    · exact .inl (h.trans (State.discardEnded_latched _))
    · exact .inl (h.trans (State.setReception_frame (r := r)
          (r' := { r with latch := r.latch ++ rest, bodyLen := some len }) (s := State.stopGuard .header s) hr rfl).latched)

theorem State.receptionEnd_kept {r : Reception} (rest : List Byte) {s : State} (hr : s.radio.reception = some r) :
    s.Kept (s.receptionEnd r rest) := by
  unfold State.receptionEnd
  split
  · exact ((State.setFrame_frame _ _ s).kept.keptIf.trans (State.frameEnded_kept _ _ _ _)).kept (State.InRange.level hr)
  · exact State.discardEnded_kept s

theorem State.receptionEnd_latched (r : Reception) (rest : List Byte) (s : State) :
    s.Latched (s.receptionEnd r rest) ∨ (s.receptionEnd r rest).fu.epoch ≠ s.fu.epoch := by
  unfold State.receptionEnd
  split
  · rename_i b _
    have k := (State.setFrame_frame b ((s.buf b).frame ++ frameRest r.bodyLen rest) s).latched
    rw [← k.epoch]
    exact (State.frameEnded_latched _ _ _ _).imp_left k.trans
  · exact .inl (State.discardEnded_latched s)

/-! ## The transmit unit's channel access and the radio restart -/

theorem State.enterPreamble_frame (s : State) : s.TxFrame s.enterPreamble :=
  ((State.stopAssessment_frame s).trans (State.tu_frame _ _)).trans (State.startWatch_frame _)

theorem State.holdReturn_frame (s : State) : s.TxFrame s.holdReturn :=
  ((State.stopOperation_frame s).trans (State.returnCurrent_frame _)).trans (State.select_frame _)

theorem State.bodyStart_both (e : TxEntry) (s : State) : s.Kept (s.bodyStart e) ∧ s.Latched (s.bodyStart e) :=
  have h := (State.tu_frame _ s).trans (State.setFrame_frame e.buf (s.bodyFrame e) _)
  ⟨h.kept.trans (State.startGuard_kept _ _ _), h.latched.trans (State.startGuard_latched _ _ _)⟩

theorem State.commit_both (a : Bool) (s : State) : s.Kept (s.commit a) ∧ s.Latched (s.commit a) := by
  unfold State.commit
  split
  · exact ⟨State.su_kept _ s (by exact id), State.su_latched _ s⟩
  · exact ⟨.refl s, .refl s⟩

/-- The two relations of a state and the state after one more frame. -/
theorem State.both_fault {s t u : State} (h : s.Kept t ∧ s.Latched t) (k : t.FaultFrame u) : s.Kept u ∧ s.Latched u :=
  ⟨h.1.trans k.kept, h.2.trans k.latched⟩

theorem State.both_trans {s t u : State} (h : s.Kept t ∧ s.Latched t) (k : t.Kept u ∧ t.Latched u) :
    s.Kept u ∧ s.Latched u := ⟨h.1.trans k.1, h.2.trans k.2⟩

theorem State.FaultFrame.both {s t : State} (h : s.FaultFrame t) : s.Kept t ∧ s.Latched t := ⟨h.kept, h.latched⟩

theorem State.bodyEnded_both (e : TxEntry) (s : State) : s.Kept (s.bodyEnded e) ∧ s.Latched (s.bodyEnded e) := by
  unfold State.bodyEnded
  dsimp only
  refine State.both_fault ?_ (State.select_frame _).fault
  have h2 : s.TxFrame (if e.mark = .relay then (s.count .txSent).count .relaySent else s.count .txSent) := by
    split
    · exact (State.count_frame _ s).trans (State.count_frame _ _)
    · exact State.count_frame _ s
  generalize (if e.mark = .relay then (s.count .txSent).count .relaySent else s.count .txSent) = s2 at h2 ⊢
  have h3 : s.Kept (s2.stopGuard .body).releaseTu ∧ s.Latched (s2.stopGuard .body).releaseTu :=
    State.both_fault (State.both_trans h2.fault.both ⟨State.stopGuard_kept _ _, State.stopGuard_latched _ _⟩)
      (State.releaseTu_frame _).fault
  generalize (s2.stopGuard .body).releaseTu = s3 at h3 ⊢
  have h5 := State.both_trans (State.both_fault h3
    ((State.tu_frame { s3.tu with current := none, phase := .idle } s3).trans (State.freeAll_frame [e.buf] _)).fault)
    (State.commit_both s.tu.sentAlert _)
  have opt : ∀ (b : Bool) (f : State → State), (∀ t : State, t.FaultFrame (f t)) → ∀ t : State, s.Kept t ∧ s.Latched t →
      s.Kept (if b = true then f t else t) ∧ s.Latched (if b = true then f t else t) := by
    intro b f hf t ht
    split
    · exact State.both_fault ht (hf t)
    · exact ht
  exact opt _ _ (State.clearOwn_frame .channelBlocked) _ (opt _ _ State.faultBodyEnded_frame _ h5)

theorem State.recordRestart_both (s : State) : s.Kept s.recordRestart ∧ s.Latched s.recordRestart := by
  unfold State.recordRestart
  dsimp only
  have h : s.Kept { s with sv := { s.sv with
      history := historyAfter s.sv.history s.ms, stall := s.after (seconds 60), failed := s.after (seconds 600) } } :=
    State.sv_kept _ s (by exact fun h => ⟨h.1, h.2.1, h.2.2.1, historyAfter_length _ _ h.2.2.2⟩)
  have l : s.Latched { s with sv := { s.sv with
      history := historyAfter s.sv.history s.ms, stall := s.after (seconds 60), failed := s.after (seconds 600) } } :=
    State.sv_latched _ s
  split
  · exact State.both_fault (State.both_fault ⟨h, l⟩ (State.raiseOwn_frame _ _)) (State.raiseOwn_frame _ _)
  · exact State.both_fault ⟨h, l⟩ (State.raiseOwn_frame _ _)

theorem State.radioDown_both (s : State) : s.Kept s.radioDown ∧ s.Latched s.radioDown :=
  State.both_fault (t := { s with guards := s.radioDown.guards }) ⟨State.guards_kept _ s, State.guards_latched _ s⟩
    ((State.radio_frame s.radioDown.radio _ (fun _ => Radio.inRange_of_none rfl)).trans (State.tu_frame s.radioDown.tu _)).fault

theorem State.radioRestart_both (strike : Bool) (s : State) :
    s.Kept (s.radioRestart strike) ∧ s.Latched (s.radioRestart strike) := by
  unfold State.radioRestart
  exact State.both_trans (State.both_fault (State.both_fault (State.both_fault (State.both_fault (State.radioDown_both s)
    (State.restartFrame_frame strike _).fault) (State.freeAll_frame _ _).fault) (State.tellUnsent_frame _ _))
    (State.startWatch_frame _).fault) (State.recordRestart_both _)

/-! ## Scans -/

theorem State.requestScan_both (r : Requester) (s : State) :
    s.Kept (s.requestScan r) ∧ s.Latched (s.requestScan r) := by
  unfold State.requestScan
  split
  · exact ⟨(State.mu_kept _ s (by exact id) (by exact id)).trans (State.startGuard_kept _ _ _),
      (State.mu_latched _ s).trans (State.startGuard_latched _ _ _)⟩
  · exact ⟨State.mu_kept _ s (by exact id) (by exact id), State.mu_latched _ s⟩

theorem State.latch_both (set : SampleSet) (s : State) : s.Kept (s.latch set) ∧ s.Latched (s.latch set) :=
  ⟨(State.mu_kept _ s (by exact id) (by exact id)).trans (State.stopGuard_kept _ _),
    (State.mu_latched _ s).trans (State.stopGuard_latched _ _)⟩

theorem ValidityRun.take_range (st : PartStatus) (v : ValidityRun) : v.InRange → (v.take st).2.InRange := by
  intro h
  unfold ValidityRun.take
  split
  · exact ⟨by simp only; omega, by simp⟩
  · exact ⟨by simp, by simp only; omega⟩

theorem State.askRun_frame (q : RunRequest) (c : FaultCode) (s : State) : s.FaultFrame (s.askRun q c) := by
  unfold State.askRun
  split
  · exact .refl s
  · exact State.raiseOwn_frame c s
  · exact State.clearOwn_frame c s

theorem State.smokeRunTakes_both (set : SampleSet) (s : State) :
    s.Kept (s.smokeRunTakes set) ∧ s.Latched (s.smokeRunTakes set) := by
  unfold State.smokeRunTakes
  split
  · exact State.both_fault ⟨State.mu_kept _ s (by exact ValidityRun.take_range _ _) (by exact id), State.mu_latched _ s⟩
      (State.askRun_frame _ _ _)
  · exact ⟨.refl s, .refl s⟩

theorem State.heatRunTakes_both (set : SampleSet) (s : State) :
    s.Kept (s.heatRunTakes set) ∧ s.Latched (s.heatRunTakes set) := by
  unfold State.heatRunTakes
  split
  · exact State.both_fault ⟨State.mu_kept _ s (by exact id) (by exact ValidityRun.take_range _ _), State.mu_latched _ s⟩
      (State.askRun_frame _ _ _)
  · exact ⟨.refl s, .refl s⟩

theorem State.batteryWatch_both (v : Nat) (s : State) : s.Kept (s.batteryWatch v) ∧ s.Latched (s.batteryWatch v) :=
  have ⟨w, hw, hf⟩ := State.batteryWatch_frame v s
  State.both_fault ⟨State.sv_kept w s hw.range, State.sv_latched w s⟩ hf

theorem State.scanCounted_both (s : State) : s.Kept s.scanCounted ∧ s.Latched s.scanCounted :=
  have ⟨w, hw, hf⟩ := State.scanCounted_frame s
  State.both_fault ⟨State.sv_kept w s hw.range, State.sv_latched w s⟩ hf

theorem State.scanAbandoned_both (s : State) : s.Kept s.scanAbandoned ∧ s.Latched s.scanAbandoned :=
  State.both_fault ⟨State.sv_kept _ s (by exact fun h => ⟨h.1, h.2.1, by simp, h.2.2.2⟩), State.sv_latched _ s⟩
    ((State.count_frame _ _).fault.trans (State.raiseOwn_frame _ _))

/-! ## The self-test and step 3 -/

theorem State.recordItem_frame (i : Nat) (p : Bool) (s : State) : s.FaultFrame (s.recordItem i p) := by
  unfold State.recordItem
  split
  · exact State.clear_frame _ _ s
  · exact State.raise_frame _ _ s

theorem State.FaultFrame.foldl {α : Type} {f : State → α → State} (h : ∀ (s : State) (a : α), s.FaultFrame (f s a))
    (l : List α) (s : State) : s.FaultFrame (l.foldl f s) := by
  induction l generalizing s with
  | nil => exact .refl s
  | cons a l ih => exact (h s a).trans (ih _)

theorem State.beginRead_both (n : Nat) (p : ReadPurpose) (s : State)
    (h : p = .selfTest ∨ ∃ r, s.sc.read = some r ∧ r.purpose = p) :
    s.Kept (s.beginRead n p) ∧ s.Latched (s.beginRead n p) := by
  refine ⟨(State.sc_kept _ s (by exact id) ?_).trans (State.startGuard_kept _ _ _),
    (State.sc_latched _ s).trans (State.startGuard_latched _ _ _)⟩
  refine ⟨id, fun hi hr => ⟨rfl, hi, ?_⟩⟩
  intro r hs
  obtain rfl := Option.some.inj hs
  rcases h with h | ⟨r, h1, h2⟩
  · exact h
  · exact h2 ▸ hr r h1

theorem State.selfTestNotice_both (set : Option SampleSet) (s : State) :
    s.Kept (s.selfTestNotice set) ∧ s.Latched (s.selfTestNotice set) := by
  unfold State.selfTestNotice
  dsimp only
  have h := (State.FaultFrame.foldl (fun t k => State.recordItem_frame k
    (set.any (fun x => itemPasses t.cfg.lowBattery s.ev x k)) t) (scanItems s.cfg.role) s).both
  refine State.both_trans (State.both_trans h ⟨State.sv_kept _ _ (by exact id), State.sv_latched _ _⟩)
    (State.beginRead_both _ _ _ (.inl rfl))

theorem State.selfTestAnswer_both (g : Bool) (s : State) :
    s.Kept (s.selfTestAnswer g) ∧ s.Latched (s.selfTestAnswer g) :=
  State.both_trans (State.recordItem_frame 6 g s).both ⟨State.sv_kept _ _ (by exact id), State.sv_latched _ _⟩

theorem State.startSelfTest_both (s : State) : s.Kept s.startSelfTest ∧ s.Latched s.startSelfTest := by
  unfold State.startSelfTest
  split
  · exact State.both_trans ⟨State.sv_kept _ s (by exact id), State.sv_latched _ s⟩ (State.requestScan_both _ _)
  · exact ⟨.refl s, .refl s⟩

theorem State.startList_both (s : State) : s.Kept s.startList ∧ s.Latched s.startList := by
  unfold State.startList
  dsimp only
  refine State.both_trans (State.both_fault ?_ (State.listChanged_frame _).fault) (State.requestScan_both _ _)
  have h := State.both_trans (State.both_trans
    (⟨State.su_kept _ s (by exact fun _ => by simp), State.su_latched _ s⟩ :
      s.Kept { s with su := { s.su with
        list := .alert, position := 1, nextBoundary := s.after (millis 500)
        startWindow := if s.isDetector then s.after (millis 30000) else none } } ∧ _)
    ⟨State.ev_kept _ _ (by exact fun h => { h with }), State.ev_latched { s.ev with
      heatTick := if s.isDetector then s.after (millis 8000) else none } _⟩)
    ⟨State.sv_kept _ _ (by exact id), State.sv_latched { s.sv with
      health := s.after (seconds (3600 * s.cfg.healthPeriod)) } _⟩
  exact h

theorem State.readProfileLine_both (s : State) : s.Kept s.readProfileLine ∧ s.Latched s.readProfileLine := by
  unfold State.readProfileLine
  split
  · exact ⟨State.profileChange_kept _ s, State.profileChange_latched _ s⟩
  · exact ⟨.refl s, .refl s⟩

theorem State.endStep3_both (s : State) : s.Kept s.endStep3 ∧ s.Latched s.endStep3 := by
  unfold State.endStep3
  dsimp only
  have h : s.Kept { s with sc := { s.sc with learning := .ended, learnLimit := none } } :=
    State.sc_kept _ s (by exact id) (by exact .of_eq rfl rfl rfl rfl)
  refine State.both_trans (State.both_trans (State.both_fault (State.both_trans ⟨h, State.sc_latched _ s⟩
    ⟨State.startObservationAt_kept _ _, State.startObservationAt_latched _ _⟩)
    (State.requestObservation_frame _).fault) (State.startSelfTest_both _)) (State.readProfileLine_both _)

theorem State.step3_both (s : State) : s.Kept s.step3 ∧ s.Latched s.step3 := by
  unfold State.step3
  dsimp only
  split
  · refine State.both_trans (State.both_trans (State.startList_both s) ⟨State.sc_kept _ _ (by exact id) ?_, State.sc_latched _ _⟩)
      (State.requestScan_both _ _)
    exact .of_eq rfl rfl rfl rfl
  · exact State.both_trans (State.startList_both s) (State.endStep3_both _)

theorem State.learningNotice_both (set : SampleSet) (s : State) :
    s.Kept (s.learningNotice set) ∧ s.Latched (s.learningNotice set) := by
  unfold State.learningNotice
  dsimp only
  have h : s.Kept { s with sc := { s.sc with learnCount := min 8 (s.sc.learnCount + 1) } } :=
    State.sc_kept _ s (by simp only; omega) (by exact .of_eq rfl rfl rfl rfl)
  split
  · split
    · exact State.both_trans ⟨h, State.sc_latched _ s⟩ (State.endStep3_both _)
    · exact ⟨h, State.sc_latched _ s⟩
  · exact ⟨.refl s, .refl s⟩

/-! ## Reads and the restart-count write -/

theorem State.ledChoose_both (s : State) : s.Kept s.ledChoose ∧ s.Latched s.ledChoose := by
  unfold State.ledChoose
  split
  · exact ⟨.refl s, .refl s⟩
  · exact ⟨State.lu_kept _ s (by exact id) (by exact id), State.lu_latched _ s⟩

theorem State.becomeInert_both (s : State) : s.Kept s.becomeInert ∧ s.Latched s.becomeInert := by
  unfold State.becomeInert
  refine State.both_trans ⟨State.sc_kept _ s (by exact id) ?_, State.sc_latched _ s⟩ (State.ledChoose_both _)
  exact ⟨fun _ => rfl, fun h _ => ⟨rfl, h, by simp⟩⟩

theorem Evidence.ofRole_range (role : Role) : (Evidence.ofRole role).InRange := by
  cases role <;> constructor <;> simp [Evidence.ofRole, Evidence.initial]

theorem State.applyRecord_both (c : ConfigRecord) (bytes : List Byte) (s : State)
    (h : ∃ r, s.sc.read = some r ∧ r.purpose = .startUp) :
    s.Kept (s.applyRecord c bytes) ∧ s.Latched (s.applyRecord c bytes) := by
  unfold State.applyRecord
  dsimp only
  refine State.both_trans ?_ ⟨State.startGuard_kept _ _ _, State.startGuard_latched _ _ _⟩
  obtain ⟨r, hr, hp⟩ := h
  have hs : s.sc.Stays { s.sc with
      config := some c
      bytes := some bytes
      read := none
      write := some (Record.countWrite bytes) } :=
    ⟨id, fun _ k => absurd (k r hr) (by rw [hp]; decide)⟩
  exact State.both_trans (State.both_trans ⟨State.sc_kept _ s (by exact id) hs, State.sc_latched _ s⟩
    ⟨State.ev_kept _ _ (fun _ => Evidence.ofRole_range c.role), State.ev_latched _ _⟩)
    ⟨State.fu_kept { s.fu with run := c.restartCount + 1 } _ id id id, .of_eq rfl rfl rfl⟩

theorem State.endRead_both (s : State) : s.Kept { s with sc := { s.sc with read := none } } ∧
    s.Latched { s with sc := { s.sc with read := none } } :=
  ⟨State.sc_kept _ s (by exact id) (by exact ⟨id, fun h _ => ⟨rfl, h, by simp⟩⟩), State.sc_latched _ s⟩

theorem State.readGood_both (r : ReadAttempt) (bytes : List Byte) (s : State) (h : s.sc.read = some r) :
    s.Kept (s.readGood r bytes) ∧ s.Latched (s.readGood r bytes) := by
  unfold State.readGood
  split
  · rename_i hp
    split
    · exact State.applyRecord_both _ _ s ⟨r, h, hp⟩
    · exact State.both_trans ⟨State.sc_kept _ s (by exact id) (by exact .of_eq rfl rfl rfl rfl), State.sc_latched _ s⟩
        (State.becomeInert_both _)
  · exact State.both_trans (State.endRead_both s) (State.selfTestAnswer_both _ _)

theorem State.readFailed_both (r : ReadAttempt) (s : State) (h : s.sc.read = some r) :
    s.Kept (s.readFailed r) ∧ s.Latched (s.readFailed r) := by
  unfold State.readFailed
  split
  · exact State.beginRead_both _ _ s (.inr ⟨r, h, rfl⟩)
  · split
    · exact State.becomeInert_both s
    · exact State.both_trans (State.endRead_both s) (State.selfTestAnswer_both _ _)

theorem State.readEnded_both (r : ReadAttempt) (bytes : List Byte) (s : State) (h : s.sc.read = some r) :
    s.Kept (s.readEnded r bytes) ∧ s.Latched (s.readEnded r bytes) := by
  unfold State.readEnded
  dsimp only
  refine State.both_trans ⟨State.stopGuard_kept .configRead s, State.stopGuard_latched _ s⟩ ?_
  split
  · exact State.readGood_both r bytes _ h
  · exact State.readFailed_both r _ h

theorem State.writeEnded_both (s : State) : s.Kept s.writeEnded ∧ s.Latched s.writeEnded := by
  unfold State.writeEnded
  refine State.both_trans (State.both_trans ⟨State.sc_kept _ s (by exact id) (by exact .of_eq rfl rfl rfl rfl),
    State.sc_latched _ s⟩ ⟨State.stopGuard_kept _ _, State.stopGuard_latched _ _⟩) (State.step3_both _)

theorem State.writeFailed_both (s : State) : s.Kept s.writeFailed ∧ s.Latched s.writeFailed := by
  unfold State.writeFailed
  refine State.both_trans (State.both_fault ⟨State.sc_kept _ s (by exact id) (by exact .of_eq rfl rfl rfl rfl),
    State.sc_latched _ s⟩ ((State.count_frame _ _).fault.trans (State.raiseOwn_frame _ _))) (State.step3_both _)

/-! ## The end of a scan -/

theorem State.handOn_both (x : Scan) (set : SampleSet) (s : State) (hp : ∀ p ∈ set.heat, p.status = heatStatusOf p.t) :
    s.Kept (s.handOn x set) ∧ s.Latched (s.handOn x set) := by
  unfold State.handOn
  dsimp only
  have opt : ∀ (b : Bool) (f : State → State), (∀ t : State, t.Kept (f t) ∧ t.Latched (f t)) → ∀ t : State,
      s.Kept t ∧ s.Latched t → s.Kept (if b = true then f t else t) ∧ s.Latched (if b = true then f t else t) := by
    intro b f hf t ht
    split
    · exact State.both_trans ht (hf t)
    · exact ht
  have h1 := opt s.isDetector (State.evaluate set) (fun t => ⟨State.evaluate_kept set t hp, State.evaluate_latched set t⟩) s
    ⟨.refl s, .refl s⟩
  exact opt _ _ (State.selfTestNotice_both _) _ (opt _ _ (State.learningNotice_both _) _
    (State.both_trans (State.both_trans (State.both_trans (State.both_trans h1 (State.batteryWatch_both _ _))
      (State.scanCounted_both _)) (State.smokeRunTakes_both _ _)) (State.heatRunTakes_both _ _)))

/-- The heat part of a sample set carries the class of its code (R10). -/
theorem sampleSet_heat (role : Role) (seq : BitVec 16) (d i b t v : Code) :
    ∀ p ∈ (sampleSet role seq d i b t v).heat, p.status = heatStatusOf p.t := by
  cases role <;> simp [sampleSet]

theorem State.scanCompleted_both (x : Scan) (d i b t v : Code) (s : State) :
    s.Kept (s.scanCompleted x d i b t v) ∧ s.Latched (s.scanCompleted x d i b t v) :=
  State.both_trans (State.latch_both _ s) (State.handOn_both _ _ _ (sampleSet_heat _ _ d i b t v))

theorem State.abandonScan_both (s : State) : s.Kept s.abandonScan ∧ s.Latched s.abandonScan := by
  unfold State.abandonScan
  split
  · exact ⟨.refl s, .refl s⟩
  · have h := State.both_trans (⟨State.mu_kept { s.mu with scan := none } s id id, State.mu_latched _ s⟩ :
      s.Kept { s with mu := { s.mu with scan := none } } ∧ _) (State.scanAbandoned_both _)
    dsimp only
    split
    · exact State.both_trans h (State.selfTestNotice_both _ _)
    · exact h

/-! ## The schedule -/

theorem State.beginEntry_both (s : State) : s.Kept s.beginEntry ∧ s.Latched s.beginEntry := by
  unfold State.beginEntry
  split
  · exact ⟨.refl s, .refl s⟩
  · dsimp only
    split
    · exact State.both_trans (State.sample_frame s).fault.both (State.requestScan_both _ _)
    · exact (State.sample_frame s).fault.both
  · dsimp only
    split
    · exact State.both_trans (State.requestScan_both _ s) (State.requestScan_both _ _)
    · exact State.requestScan_both _ s

theorem State.advance_both (s : State) : s.Kept s.advance ∧ s.Latched s.advance := by
  refine ⟨State.su_kept _ s ?_, State.su_latched _ s⟩
  intro h
  have hl : s.su.list.entries ≤ 4 := by cases s.su.list <;> decide
  by_cases hp : s.su.position < s.su.list.entries
  · simp only [if_pos hp]; omega
  · simp only [if_neg hp]; omega

theorem State.switchTo_both (l : ActiveList) (s : State) : s.Kept (s.switchTo l) ∧ s.Latched (s.switchTo l) :=
  State.both_fault ⟨State.su_kept _ s (by exact fun _ => by simp), State.su_latched _ s⟩ (State.listChanged_frame _).fault

theorem State.alertBoundary_both (c : Bool) (s : State) : s.Kept (s.alertBoundary c) ∧ s.Latched (s.alertBoundary c) := by
  unfold State.alertBoundary
  dsimp only
  have h : s.Kept { s with su := { s.su with hold := holdAfter c s.now s.su.hold } } ∧
      s.Latched { s with su := { s.su with hold := holdAfter c s.now s.su.hold } } :=
    ⟨State.su_kept _ s (by exact id), State.su_latched _ s⟩
  split
  · exact State.both_trans (State.both_trans h (State.switchTo_both _ _)) (State.beginEntry_both _)
  · exact State.both_trans (State.both_trans h (State.advance_both _)) (State.beginEntry_both _)

theorem State.quietBoundary_both (c : Bool) (s : State) : s.Kept (s.quietBoundary c) ∧ s.Latched (s.quietBoundary c) := by
  unfold State.quietBoundary
  split
  · exact State.both_trans (State.switchTo_both _ s) (State.beginEntry_both _)
  · exact State.both_trans (State.advance_both s) (State.beginEntry_both _)

theorem State.boundaryWork_both (s : State) : s.Kept s.boundaryWork ∧ s.Latched s.boundaryWork := by
  unfold State.boundaryWork
  dsimp only
  have h : s.Kept { s with sv := { s.sv with selfTestEnded := false } } ∧
      s.Latched { s with sv := { s.sv with selfTestEnded := false } } :=
    ⟨State.sv_kept _ s (by exact id), State.sv_latched _ s⟩
  split
  · split
    · exact ⟨.refl s, .refl s⟩
    · exact State.both_trans h (State.quietBoundary_both _ _)
    · exact State.both_trans h (State.alertBoundary_both _ _)
  · split
    · exact ⟨.refl s, .refl s⟩
    · exact State.both_trans (State.advance_both s) (State.beginEntry_both _)
    · exact State.both_trans (State.advance_both s) (State.beginEntry_both _)

theorem State.leaveDoze_both (s : State) : s.Kept s.leaveDoze ∧ s.Latched s.leaveDoze := by
  unfold State.leaveDoze
  split
  · exact ⟨.refl s, .refl s⟩
  · exact ⟨State.su_kept _ s (by exact id), State.su_latched _ s⟩

theorem State.holdWork_both (w : HeldWork) (s : State) : s.Kept (s.holdWork w) ∧ s.Latched (s.holdWork w) :=
  ⟨State.su_kept _ s (by exact id), State.su_latched _ s⟩

/-! ## The work of the timers -/

theorem State.guardConsequence_both (g : GuardName) (s : State) :
    s.Kept (s.guardConsequence g) ∧ s.Latched (s.guardConsequence g) := by
  unfold State.guardConsequence
  split
  · exact State.abandonScan_both s
  · exact State.both_trans (State.count_frame _ s).fault.both (State.radioRestart_both _ _)
  · exact State.both_trans (State.count_frame _ s).fault.both (State.radioRestart_both _ _)
  · exact State.both_trans (State.count_frame _ s).fault.both (State.radioRestart_both _ _)
  · exact State.both_trans (State.count_frame _ s).fault.both (State.radioRestart_both _ _)
  · exact State.both_trans (State.count_frame _ s).fault.both (State.radioRestart_both _ _)
  · unfold State.readExpired
    split
    · rename_i r hr
      exact State.both_trans (State.count_frame _ s).fault.both (State.readFailed_both r _ hr)
    · exact ⟨.refl s, .refl s⟩
  · exact State.writeFailed_both s

theorem State.backoffEnded_frame (s : State) : s.FaultFrame s.backoffEnded := by
  unfold State.backoffEnded
  split
  · split
    · exact (State.holdReturn_frame s).fault
    · exact State.request_frame s
  · exact .refl s

theorem State.heatPush_both (s : State) : s.Kept s.heatPush ∧ s.Latched s.heatPush := by
  unfold State.heatPush
  split
  · rename_i t ht
    refine ⟨State.ev_kept _ s ?_, State.ev_latched _ s⟩
    exact fun h => { h with
      candidate := by simp
      ring := ringPush_range h.ring (h.candidate t ht)
      ringLength := ringPush_length _ h.ringLength }
  · exact ⟨.refl s, .refl s⟩

theorem State.holdEnded_frame (s : State) : s.TxFrame s.holdEnded := by
  unfold State.holdEnded
  split
  · exact .refl s
  · exact State.select_frame s

theorem State.loseEntry_both (a : Addr) (s : State) :
    s.Kept { s with nt := loseEntry a s.nt } ∧ s.Latched { s with nt := loseEntry a s.nt } := by
  refine ⟨State.ntMap_kept _ s (fun n => ?_) (fun n h => ?_), State.nt_latched _ s⟩
  · split <;> rfl
  · split
    · exact { h with }
    · exact h

theorem State.supervisionFell_both (a : Addr) (s : State) :
    s.Kept (s.supervisionFell a) ∧ s.Latched (s.supervisionFell a) := by
  unfold State.supervisionFell
  split
  · exact ⟨.refl s, .refl s⟩
  · split
    · exact ⟨.refl s, .refl s⟩
    · split
      · exact State.both_fault (State.loseEntry_both a s) (State.raise_frame _ _ _)
      · have h : s.Kept { s with nt := removeEntry a s.nt } ∧ s.Latched { s with nt := removeEntry a s.nt } :=
          ⟨State.nt_kept _ s (fun h => Nat.le_trans (List.length_filter_le _ _) h)
            (fun h n hn => h n (List.mem_filter.1 hn).1) (nodup_filter_of_keys _), State.nt_latched _ s⟩
        dsimp only
        split
        · exact State.both_fault h (State.select_frame _).fault
        · exact h
      · exact ⟨.refl s, .refl s⟩

theorem State.showStatePattern_both (t : Us) (s : State) :
    s.Kept (s.showStatePattern t) ∧ s.Latched (s.showStatePattern t) := by
  unfold State.showStatePattern
  dsimp only
  have h : s.Kept { s with lu := { s.lu with statePattern := some (t + seconds 2) } } :=
    State.lu_kept _ s (by exact id) (by exact id)
  split
  · exact State.both_trans ⟨h, State.lu_latched _ s⟩
      ⟨State.lu_kept _ _ (by exact id) (by exact id), State.lu_latched _ _⟩
  · exact State.both_trans ⟨h, State.lu_latched _ s⟩ (State.ledChoose_both _)

/-- The work of every expiry, boundary and press keeps what every operation keeps. -/
theorem State.perform_kept (w : HeldWork) (s : State) : s.Kept (s.perform w) := by
  cases w with
  | backoffEnd => exact (State.backoffEnded_frame s).kept
  | relayOffer b => exact (State.relayOffer_frame b s).kept
  | heatPush => exact (State.heatPush_both s).1
  | observation => exact (State.requestObservation_frame s).kept
  | refresh => exact (State.refreshFire_frame s).kept
  | serviceLimit => exact State.serviceEnded_kept s
  | holdEnded => exact (State.holdEnded_frame s).kept
  | supervision a => exact (State.supervisionFell_both a s).1
  | health => exact (State.askHealth_frame s).kept
  | guardExpired g => exact (State.guardConsequence_both g s).1
  | boundary => exact (State.boundaryWork_both s).1
  | stallEnded => exact (State.clearOwn_frame _ s).kept
  | failedEnded =>
    exact (State.sv_kept { s.sv with history := [] } s (fun h => ⟨h.1, h.2.1, h.2.2.1, by simp⟩)).trans
      (State.clearOwn_frame _ _).kept
  | reportRetry => exact (State.look_frame s).kept
  | channelBlocked => exact (State.raiseOwn_frame _ s).kept
  | shortPress t => exact (State.showStatePattern_both t s).1.trans (State.requestObservation_frame _).kept
  | longPress => exact (State.startSelfTest_both s).1
  | silencePress => exact State.silencePress_kept s
  | resetPress => exact State.resetPress_kept s
  | profileChange p => exact State.profileChange_kept p s

/-- The work of every expiry, boundary and press but the reset press keeps what is latched. -/
theorem State.perform_latched (w : HeldWork) (s : State) (h : w ≠ .resetPress) : s.Latched (s.perform w) := by
  cases w with
  | backoffEnd => exact (State.backoffEnded_frame s).latched
  | relayOffer b => exact (State.relayOffer_frame b s).latched
  | heatPush => exact (State.heatPush_both s).2
  | observation => exact (State.requestObservation_frame s).latched
  | refresh => exact (State.refreshFire_frame s).latched
  | serviceLimit => exact State.serviceEnded_latched s
  | holdEnded => exact (State.holdEnded_frame s).latched
  | supervision a => exact (State.supervisionFell_both a s).2
  | health => exact (State.askHealth_frame s).latched
  | guardExpired g => exact (State.guardConsequence_both g s).2
  | boundary => exact (State.boundaryWork_both s).2
  | stallEnded => exact (State.clearOwn_frame _ s).latched
  | failedEnded => exact (State.sv_latched { s.sv with history := [] } s).trans (State.clearOwn_frame _ _).latched
  | reportRetry => exact (State.look_frame s).latched
  | channelBlocked => exact (State.raiseOwn_frame _ s).latched
  | shortPress t => exact (State.showStatePattern_both t s).2.trans (State.requestObservation_frame _).latched
  | longPress => exact (State.startSelfTest_both s).2
  | silencePress => exact State.silencePress_latched s
  | resetPress => exact absurd rfl h
  | profileChange p => exact State.profileChange_latched p s

theorem State.wakeWork_kept (w : HeldWork) (s : State) : s.Kept (s.wakeWork w) := by
  unfold State.wakeWork
  split
  · exact State.perform_kept w s
  · exact (State.leaveDoze_both s).1.trans (State.holdWork_both w _).1

theorem State.wakeWork_latched (w : HeldWork) (s : State) (h : w ≠ .resetPress) : s.Latched (s.wakeWork w) := by
  unfold State.wakeWork
  split
  · exact State.perform_latched w s h
  · exact (State.leaveDoze_both s).2.trans (State.holdWork_both w _).2

theorem State.timerWork_kept (w : HeldWork) (s : State) : s.Kept (s.timerWork w) := by
  unfold State.timerWork
  split
  · exact (State.holdWork_both w s).1
  · exact State.perform_kept w s

theorem State.timerWork_latched (w : HeldWork) (s : State) (h : w ≠ .resetPress) : s.Latched (s.timerWork w) := by
  unfold State.timerWork
  split
  · exact (State.holdWork_both w s).2
  · exact State.perform_latched w s h

theorem State.endSettle_kept (s : State) : s.Kept s.endSettle :=
  (State.su_kept { s.su with settleEnd := none, held := [] } s id).trans
    (State.Kept.foldl _ (fun w _ t => State.perform_kept w t) _)

theorem State.endSettle_latched (s : State) (h : .resetPress ∉ s.su.held) : s.Latched s.endSettle :=
  (State.su_latched { s.su with settleEnd := none, held := [] } s).trans
    (State.Latched.foldl _ (fun w hw t => State.perform_latched w t (by rintro rfl; exact h hw)) _)

/-! ## Inputs -/

theorem State.setInput_both (line : InputLine) (i : Input) (s : State) :
    s.Kept (s.setInput line i) ∧ s.Latched (s.setInput line i) := by
  refine ⟨State.lu_kept _ s ?_ ?_, State.lu_latched _ s⟩ <;> cases line <;> exact id

theorem State.testChanged_both (p : Bool) (s : State) : s.Kept (s.testChanged p) ∧ s.Latched (s.testChanged p) := by
  have h : ∀ x : Timer, s.Kept { s with lu := { s.lu with press := x } } ∧
      s.Latched { s with lu := { s.lu with press := x } } :=
    fun x => ⟨State.lu_kept _ s (by exact id) (by exact id), State.lu_latched _ s⟩
  unfold State.testChanged
  split
  · exact h (s.after (millis 3000))
  · split
    · dsimp only
      have k := h none
      generalize ({ s with lu := { s.lu with press := none } } : State) = t at k ⊢
      split
      · exact State.both_trans k ⟨State.timerWork_kept _ t, State.timerWork_latched _ t (by simp)⟩
      · exact k
    · exact ⟨.refl s, .refl s⟩

theorem State.inputChanged_kept (line : InputLine) (level : Bool) (s : State) : s.Kept (s.inputChanged line level) := by
  unfold State.inputChanged
  split
  · exact (State.testChanged_both level s).1
  all_goals
    split
    · exact State.timerWork_kept _ s
    · exact .refl s

/-- A change of a debounced level either leaves what is latched, or is a reset press and brings another epoch. -/
theorem State.inputChanged_latched (line : InputLine) (level : Bool) (s : State) :
    s.Latched (s.inputChanged line level) ∨ (s.inputChanged line level).fu.epoch = s.fu.epoch + 1 := by
  unfold State.inputChanged
  split
  · exact .inl (State.testChanged_both level s).2
  · split
    · exact .inl (State.timerWork_latched _ s (by simp))
    · exact .inl (.refl s)
  · split
    · exact .inl (State.timerWork_latched _ s (by simp))
    · exact .inl (.refl s)
  · split
    · unfold State.timerWork
      split
      · exact .inl (State.holdWork_both _ s).2
      · right
        rw [show s.perform .resetPress = s.resetPress from rfl, State.resetPress_epoch]
    · exact .inl (.refl s)

/-! ## What follows every event -/

theorem State.ledFollows_both (fires : List FireOrigin) (o : Bool) (s : State) :
    s.Kept (s.ledFollows fires o) ∧ s.Latched (s.ledFollows fires o) := by
  unfold State.ledFollows
  split
  · exact ⟨.refl s, .refl s⟩
  · exact State.ledChoose_both s

theorem State.driveLines_both (s : State) : s.Kept s.driveLines ∧ s.Latched s.driveLines :=
  ⟨State.lu_kept _ s (by exact id) (by exact id), State.lu_latched _ s⟩

theorem State.enterDoze_both (s : State) : s.Kept s.enterDoze ∧ s.Latched s.enterDoze := by
  unfold State.enterDoze
  split
  · exact ⟨State.su_kept _ s (by exact id), State.su_latched _ s⟩
  · exact ⟨.refl s, .refl s⟩

/-- What follows every event keeps what every operation keeps, and what is latched. -/
theorem State.finish_both (s0 s : State) : s.Kept (State.finish s0 s) ∧ s.Latched (State.finish s0 s) :=
  State.both_trans (State.both_trans (State.ledFollows_both _ _ s) (State.driveLines_both _)) (State.enterDoze_both _)

/-- What follows every event changes the lines, the LED and the power state alone. -/
theorem State.finish_eq (s0 s : State) :
    State.finish s0 s =
      { s with
        su := { s.su with power := (State.finish s0 s).su.power }
        lu := { s.lu with
          sounder := s.sounding
          fireRelay := s.fireRelayOn
          faultRelay := s.faultRelayOn
          led := (State.finish s0 s).lu.led
          ledStart := (State.finish s0 s).lu.ledStart
          ledNext := (State.finish s0 s).lu.ledNext } } := by
  unfold State.finish State.enterDoze State.ledFollows State.ledChoose
  split <;> split <;> first | rfl | (split <;> rfl)

@[simp] theorem State.finish_now (s0 s : State) : (State.finish s0 s).now = s.now := by rw [State.finish_eq]
@[simp] theorem State.finish_draws (s0 s : State) : (State.finish s0 s).draws = s.draws := by rw [State.finish_eq]
@[simp] theorem State.finish_pending (s0 s : State) : (State.finish s0 s).pending = s.pending := by rw [State.finish_eq]
@[simp] theorem State.finish_mu (s0 s : State) : (State.finish s0 s).mu = s.mu := by rw [State.finish_eq]
@[simp] theorem State.finish_ev (s0 s : State) : (State.finish s0 s).ev = s.ev := by rw [State.finish_eq]
@[simp] theorem State.finish_det (s0 s : State) : (State.finish s0 s).det = s.det := by rw [State.finish_eq]
@[simp] theorem State.finish_nt (s0 s : State) : (State.finish s0 s).nt = s.nt := by rw [State.finish_eq]
@[simp] theorem State.finish_radio (s0 s : State) : (State.finish s0 s).radio = s.radio := by rw [State.finish_eq]
@[simp] theorem State.finish_pool (s0 s : State) : (State.finish s0 s).pool = s.pool := by rw [State.finish_eq]
@[simp] theorem State.finish_tu (s0 s : State) : (State.finish s0 s).tu = s.tu := by rw [State.finish_eq]
@[simp] theorem State.finish_fu (s0 s : State) : (State.finish s0 s).fu = s.fu := by rw [State.finish_eq]
@[simp] theorem State.finish_guards (s0 s : State) : (State.finish s0 s).guards = s.guards := by rw [State.finish_eq]
@[simp] theorem State.finish_faults (s0 s : State) : (State.finish s0 s).faults = s.faults := by rw [State.finish_eq]
@[simp] theorem State.finish_counters (s0 s : State) : (State.finish s0 s).counters = s.counters := by rw [State.finish_eq]
@[simp] theorem State.finish_sv (s0 s : State) : (State.finish s0 s).sv = s.sv := by rw [State.finish_eq]
@[simp] theorem State.finish_sc (s0 s : State) : (State.finish s0 s).sc = s.sc := by rw [State.finish_eq]

@[simp] theorem State.finish_sounder (s0 s : State) : (State.finish s0 s).lu.sounder = s.sounding := by
  rw [State.finish_eq]
@[simp] theorem State.finish_fireRelay (s0 s : State) : (State.finish s0 s).lu.fireRelay = s.fireRelayOn := by
  rw [State.finish_eq]
@[simp] theorem State.finish_faultRelay (s0 s : State) : (State.finish s0 s).lu.faultRelay = s.faultRelayOn := by
  rw [State.finish_eq]
@[simp] theorem State.finish_lu_statePattern (s0 s : State) : (State.finish s0 s).lu.statePattern = s.lu.statePattern := by rw [State.finish_eq]
@[simp] theorem State.finish_lu_records (s0 s : State) : (State.finish s0 s).lu.records = s.lu.records := by rw [State.finish_eq]
@[simp] theorem State.finish_lu_lost (s0 s : State) : (State.finish s0 s).lu.lost = s.lu.lost := by rw [State.finish_eq]
@[simp] theorem State.finish_lu_sendEnd (s0 s : State) : (State.finish s0 s).lu.sendEnd = s.lu.sendEnd := by rw [State.finish_eq]
@[simp] theorem State.finish_lu_remote (s0 s : State) : (State.finish s0 s).lu.remote = s.lu.remote := by rw [State.finish_eq]
@[simp] theorem State.finish_lu_remoteOverflow (s0 s : State) : (State.finish s0 s).lu.remoteOverflow = s.lu.remoteOverflow := by rw [State.finish_eq]
@[simp] theorem State.finish_lu_test (s0 s : State) : (State.finish s0 s).lu.test = s.lu.test := by rw [State.finish_eq]
@[simp] theorem State.finish_lu_profileLine (s0 s : State) : (State.finish s0 s).lu.profileLine = s.lu.profileLine := by rw [State.finish_eq]
@[simp] theorem State.finish_lu_silenceLine (s0 s : State) : (State.finish s0 s).lu.silenceLine = s.lu.silenceLine := by rw [State.finish_eq]
@[simp] theorem State.finish_lu_resetLine (s0 s : State) : (State.finish s0 s).lu.resetLine = s.lu.resetLine := by rw [State.finish_eq]
@[simp] theorem State.finish_lu_press (s0 s : State) : (State.finish s0 s).lu.press = s.lu.press := by rw [State.finish_eq]
@[simp] theorem State.finish_su_list (s0 s : State) : (State.finish s0 s).su.list = s.su.list := by rw [State.finish_eq]
@[simp] theorem State.finish_su_position (s0 s : State) : (State.finish s0 s).su.position = s.su.position := by rw [State.finish_eq]
@[simp] theorem State.finish_su_nextBoundary (s0 s : State) : (State.finish s0 s).su.nextBoundary = s.su.nextBoundary := by rw [State.finish_eq]
@[simp] theorem State.finish_su_startWindow (s0 s : State) : (State.finish s0 s).su.startWindow = s.su.startWindow := by rw [State.finish_eq]
@[simp] theorem State.finish_su_hold (s0 s : State) : (State.finish s0 s).su.hold = s.su.hold := by rw [State.finish_eq]
@[simp] theorem State.finish_su_commitment (s0 s : State) : (State.finish s0 s).su.commitment = s.su.commitment := by rw [State.finish_eq]
@[simp] theorem State.finish_su_settleEnd (s0 s : State) : (State.finish s0 s).su.settleEnd = s.su.settleEnd := by rw [State.finish_eq]
@[simp] theorem State.finish_su_held (s0 s : State) : (State.finish s0 s).su.held = s.su.held := by rw [State.finish_eq]

/-- A buffer and a counter read as before what follows every event. -/
@[simp] theorem State.finish_buf (s0 s : State) (b : Fin 8) : (State.finish s0 s).buf b = s.buf b := by
  simp only [State.buf, State.finish_pool]
@[simp] theorem State.finish_counter (s0 s : State) (c : Counter) : (State.finish s0 s).counter c = s.counter c := by
  simp only [State.counter, State.finish_counters]
@[simp] theorem State.finish_relayWaitOf (s0 s : State) (b : Fin 8) :
    (State.finish s0 s).relayWaitOf b = s.relayWaitOf b := by simp only [State.relayWaitOf, State.finish_fu]

@[simp] theorem State.finish_faultActive (s0 s : State) (c : FaultCode) (a : Addr) :
    (State.finish s0 s).FaultActive c a ↔ s.FaultActive c a := by simp only [State.FaultActive, State.finish_faults]

/-- The lines stand as their conditions say after every event (R145, R194). -/
theorem State.finish_linesFollow (s0 s : State) : (State.finish s0 s).LinesFollow := by
  refine ⟨?_, ?_, ?_⟩
  · simp [State.sounding]
  · simp [State.fireRelayOn, State.fireListed, State.isPanel]
  · simp [State.faultRelayOn, State.faultIndication, State.isPanel]

end Sys2Proof.Machine
end

