-- ==== Sys2Proof/Tests/Slice0.lean ====
section
/-! SUPPORT. Small tests: ill-formed commands refused, the worked figures of spec/, one step of a command on a small
state, and for each statement with hypotheses a state and operands that meet them. -/
namespace Sys2Proof.Tests
open Sys2Proof Sys2Proof.Machine

set_option Elab.async false

/-! ## Small states -/

/-- The record of a station 0x0205 in zone 3 with the default figures of chapters 2 and 3. -/
def record (role : Role) : ConfigRecord :=
  { networkId := 0x5C21, address := 0x0205, zone := 3, role := role, channel := 2, hopLimit := 12, observationPeriod := 60,
    healthPeriod := 6, settleCode := 1, serviceApplies := true,
    normal := { watch := 250, alarm := 600, confirm := 1400, verifyMax := 120 },
    service := { watch := 400, alarm := 800, confirm := 2000, verifyMax := 180 },
    verifySolo := 30, gain := 256, smokeFull := 800, ratioMin := 20, rorFloor := 8, warmLevel := 160, heatLimit := 232,
    lowBattery := 600, restartCount := 16 }

/-- Evidence with the learned baselines of 2.13. -/
def learned : Evidence := { Evidence.initial with ibase := 3200, bbase := 2400, smoke := some 0, ratio := some 63 }

/-- A station in service at 1 s of station time, in RUN on quiet entry 1. -/
def station (role : Role) : State :=
  { State.reset with
    now := 1000000
    ev := learned
    fu := { Fu.initial with run := 17 }
    su := { Su.initial with list := .quiet, position := 1, nextBoundary := some 1500000 }
    sc := { Sc.initial none with inReset := false, config := some (record role), learning := .ended } }

/-- The state a command answers. -/
def after (o : Host.Outcome State Fault Refusal) : State :=
  match o with
  | .next t => t
  | .fault _ => State.reset
  | .refused _ => State.reset

/-- The 42 bytes of the MULTI record above; bytes 0..39 sum to 0x07B1. -/
def recordBytes : List Byte :=
  [0x21, 0x5C, 0x05, 0x02, 3, 0, 2, 12, 60, 6, 1, 1, 0xFA, 0, 0x58, 2, 0x78, 5, 120, 0x90, 1, 0x20, 3, 0xD0, 7, 180,
   30, 0, 1, 0x20, 3, 20, 8, 160, 0, 232, 0, 0x58, 2, 16, 0xB1, 0x07]

/-- A station that has read nothing yet and is in start-up read attempt `n`. -/
def reading (n : Nat) : State :=
  { State.reset with
    sc := { Sc.initial none with
      inReset := false, read := some { number := n, serial := n, purpose := .startUp }, attempts := n }
    guards := { Guards.initial with configRead := some 100000 } }

/-- A frame on air from `sender`: kind, flags and body, with its CRC. -/
def frameOf (kind flags : Byte) (sender : Addr) (body : List Byte) : List Byte :=
  Frame.withCrc (le16Bytes 0x5C21 ++ [kind, flags] ++ le16Bytes sender ++ [BitVec.ofNat 8 body.length] ++ body)

/-- The FIRE of 5.10 as received from 0x0422: origin 0x0310, run 17, sequence 203, hops 2 of 12, epoch `epoch`. -/
def fireFrame (epoch : Byte) : List Byte :=
  frameOf 2 0x0A 0x0422 [0x10, 0x03, 17, 203, 0x2C, epoch, 0, 7, 1, 0xDA, 0x02]

/-- A LIVE neighbour of zone 3 last heard at 1 s. -/
def neighbour (a : Addr) : Neighbour :=
  { addr := a, zone := some 3, avg := -280, frames := 5, lastHeard := 1000, alert := true, report := none, hold := none,
    supervision := some 271000, status := .live }

/-- A LIVE neighbour of zone 3 whose report is given. -/
def reporter (a : Addr) (st : DetState) (e heard : Nat) : Neighbour :=
  { neighbour a with report := some { state := st, e := e, heardAt := heard } }

/-- A station with the urgent frame `f` in progress, or the routine one, in buffer 0. -/
def sending (cls : FrameClass) (phase : TxPhase) (f : List Byte) (s : State) : State :=
  { s with
    pool := s.pool.put 0 { state := .sending, cls := some cls, frame := f, level := none }
    tu := { s.tu with
      phase := phase
      current := some { buf := 0, mark := .own, deferrals := if cls = .urgent then none else some 0, strikes := 0,
                        headTime := none } } }

/-! ## WellFormed refuses -/

theorem test_wf_attempt_0 : Instr.wf (.configReadAttemptEnd 0 0 recordBytes) = false := by decide
theorem test_wf_record_41_bytes : Instr.wf (.configReadAttemptEnd 0 1 (recordBytes.take 41)) = false := by decide
theorem test_wf_record : Instr.wf (.configReadAttemptEnd 0 3 recordBytes) = true := by decide
theorem test_wf_hold_address : Instr.wf (.holdTimerExpiry 0 0) = false := by decide
theorem test_wf_supervision_address : Instr.wf (.supervisionExpiry 0 0xFFFF) = false := by decide
theorem test_wf_frame_51_bytes : Instr.wf (.frameEnd 0 (List.replicate 51 0)) = false := by decide
theorem test_wf_frame_50_bytes : Instr.wf (.frameEnd 0 (List.replicate 50 0)) = true := by decide

/-! ## Words -/

/-- The table gives no row any bits. -/
theorem test_no_word_spells_a_command : decodeTableWord 8 0 = none := by decide
theorem test_step_idles : after (step State.reset) = State.reset := by decide

/-! ## Worked figures -/

/-- R93: the CRC of the nine bytes "123456789". -/
theorem test_crc : crc [0x31, 0x32, 0x33, 0x34, 0x35, 0x36, 0x37, 0x38, 0x39] = 0x29B1 := by decide +kernel

/-- 0.5.5. -/
theorem test_window : newer 2 255 = true ∧ older 130 2 = true ∧ newer 130 2 = false := by decide

/-- R83: a FIRE's body time. -/
theorem test_body_time : bodyTime 11 = 3520 := by decide

/-- R186. -/
theorem test_record : Record.good recordBytes = true ∧ Record.apply recordBytes = some (record .multi) := by
  decide

/-- R3: the nominal completion times, and the starts of the five conversions of a full scan. A front-end start that lasts
30 µs longer delays every step after it; an IR code that comes 40 µs late leaves the IR pulse and its conversion as they
were. -/
theorem test_timelines :
    [Role.multi, .heat, .relay, .panel].map nominalScanTime = [1000, 340, 130, 130] ∧
      (((scanTimeline (fun _ => 0) .multi).filter (fun p => decide (∃ c ∈ scanGroup .multi, p.step = .conversion c))).map
        (·.start)) = [70, 270, 570, 880, 940] ∧
      (((scanTimeline (fun k => if k = 0 then 30 else if k = 5 then 40 else 0) .multi).filter (fun p =>
        decide (∃ c ∈ scanGroup .multi, p.step = .conversion c))).map (·.start)) = [100, 300, 640, 950, 1010] := by decide

/-- R84: the preamble's bits. -/
theorem test_preamble_pattern :
    (preamblePattern false).length = 200 ∧ (preamblePattern false).take 4 = [true, false, true, false] ∧
      preambleTime true / bitTime = 26000 := by decide +kernel

/-- 2.13, the dust. -/
theorem test_dust :
    let set := sampleSet .multi 1 40 300 210 290 700
    let f := { learned with ring := [86, 86, 87, 87, 88, 89, 90, 90] }.figures (record .multi) set
    (f.smoke, f.ratio, f.esw, f.theta, f.ror, f.eh, f.e) = (some 960, some 5, 250, some 90, 4, 0, 250) := by decide

/-- 2.14, both scatter codes saturated. -/
theorem test_saturated :
    let f := learned.figures (record .multi) (sampleSet .multi 1 30 1023 1023 290 700)
    (f.smoke, f.ratio, f.esw) = (some 4095, some 17, 812) := by decide

/-- 2.14, the contamination limit: evaluations 8 and 9. -/
theorem test_contamination :
    (trackIbase 755 11999, trackRaises 755 11999, trackIbase 755 12000, trackRaises 755 12000) =
      (12000, false, 12000, true) := by decide

/-- 3.10, the two evaluations. -/
theorem test_corroboration :
    corroboration 20000 3 720 [reporter 0x142 .watch 500 18000, reporter 0x143 .verify 300 14000,
      reporter 0x151 .watch 800 8000, reporter 0x160 .quiet 100 17000] = 1370 ∧
    corroboration 20500 3 720 [reporter 0x142 .watch 700 19500, reporter 0x143 .verify 300 14000,
      reporter 0x151 .watch 800 8000, reporter 0x160 .quiet 100 17000] = 1570 := by decide

/-- 4.8. -/
theorem test_link_average :
    [-82, -78, -90, -80].foldl (fun l p => l ++ [linkAverage (l.getLast?.getD 0) p]) [4 * (-80)] =
      [-320, -321, -320, -325, -325] := by decide

/-- 8.11: the seen window, to sequence 252. -/
theorem test_seen_window :
    let e0 : SeenEntry := { origin := 0x205, run := 9, h := 254, marks := [253, 251], updated := 0, pins := 0 }
    let e := ((e0.accept 0 9 255).accept 0 9 2).accept 0 9 252
    e.h = 2 ∧ e.marks = [255, 254, 253, 252, 251] ∧
      [(9, 253), (9, 2), (9, 250), (9, 130), (8, 40), (10, 0)].map (fun x => e.judge x.1 x.2) =
        [.duplicate, .duplicate, .stale, .stale, .stale, .accepted] := by decide

/-- 5.10: the relay copy's sender and hops. -/
theorem test_relay_copy :
    let f := Frame.relayCopy 0x0410 (fireFrame 4)
    Frame.sender f = 0x0410 ∧ Frame.hops f = 3 ∧ Frame.hopLimit f = 12 ∧ Frame.seq f = 203 ∧ Frame.originZone f = 7 := by
  decide

/-- 5.11: an OBSERVATION of length 11 with both parts, and a SILENCE with hops above its limit. -/
theorem test_judged :
    validate (record .multi) 13 (frameOf 1 0 0x310 [0, 0, 0, 0, 0, 3, 3, 0, 0, 0, 0]) = some .rxFormat ∧
    validate (record .multi) 10 (frameOf 3 0 0x310 [0x10, 3, 1, 1, 0xDC, 0, 3, 0]) = some .rxFormat ∧
    validate (record .multi) 11 (frameOf 5 0 0x310 [0x10, 3, 1, 1, 0x1C, 0, 2, 0, 1]) = some .rxRefused ∧
    validate (record .multi) 13 (fireFrame 4) = none := by decide +kernel

/-! ## States that meet the hypotheses of the statements -/

theorem witness_StepTakesTheFront :
    { station .multi with pending := [.heatTick 0, .settleEnd 5] }.pending = .heatTick 0 :: [.settleEnd 5] := by decide

/-- One state in RUN that enters DOZE after an event and one that does not. -/
theorem witness_WhatFollowsEveryEvent :
    ((station .multi).su.power = .run ∧ (State.finish (station .multi) (station .multi)).su.power = .doze ∧
      (State.finish (reading 1) (reading 1)).su.power = .run ∧
      { station .multi with now := 1499000 }.mayDoze = false ∧ { station .multi with now := 1498999 }.mayDoze = true) ∧
    (let lit : State := { station .multi with fu := { Fu.initial with
       fires := [{ origin := 0x310, zone := 7, cause := 1, silenced := false }] } }
     ¬ (lit.fu.fires = (station .multi).fu.fires ∧ lit.fu.overflow = (station .multi).fu.overflow) ∧
       lit.ledChoice = .steady ∧ lit.lu.led ≠ .steady) := by
  decide

theorem witness_ReleaseBeginsTheRead : State.reset.sc.inReset = true ∧ State.reset.lu.test.raw = false ∧
    (let s := { State.reset with lu := .initial true true true true }
     s.sc.inReset = true ∧ s.lu.test.raw = true ∧ s.lu.profileLine.raw = true ∧ s.lu.silenceLine.raw = true ∧
       s.lu.resetLine.raw = true) ∧
    State.reset.sc.inert = false ∧ State.reset.fu.fires = [] ∧ State.reset.lu.statePattern = none ∧
    State.reset.det.state ≠ .verify ∧ (∀ r ∈ State.reset.faults.records, r.active = false) ∧
    State.reset.faults.storageLoss = false ∧ State.reset.lu.led = .off := by decide

/-- The record with the role byte 4, its checksum right. -/
def unusableBytes : List Byte := (recordBytes.set 5 4).set 40 0xB5

/-- A station whose self-test re-reads the record, attempt `n` after one of the start-up. -/
def rereading (n : Nat) : State :=
  { station .multi with
    sc := { (station .multi).sc with read := some { number := n, serial := n + 1, purpose := .selfTest }, attempts := n + 1 }
    guards := { Guards.initial with configRead := some 1100000 }
    sv := { Sv.initial with selfTest := .reading } }

theorem witness_ReadAttemptEnd :
    ((reading 1).sc.read = some { number := 1, serial := 1, purpose := .startUp } ∧ recordBytes.length = 42 ∧
      Record.good recordBytes = true ∧ Record.apply recordBytes = some (record .multi)) ∧
    (Record.good unusableBytes = true ∧ Record.apply unusableBytes = none) ∧
    ((reading 2).sc.read = some { number := 2, serial := 2, purpose := .startUp } ∧
      Record.good (recordBytes.set 40 0) = false ∧ 2 < 3) ∧
    ((reading 3).sc.read = some { number := 3, serial := 3, purpose := .startUp } ∧ 3 ≤ 3) ∧
    (∀ n ∈ [1, 2, 3], (reading n).guards.configRead ≠ none ∧ (rereading n).guards.configRead ≠ none) := by decide

/-- The tables of a state with no entries are keyed. -/
theorem keyed_of_empty (s : State) (h : s.nt = [] ∧ s.faults.records = [] ∧ s.fu.fires = [] ∧ s.fu.seen = [] ∧
    s.lu.remote = []) : s.TablesKeyed := by
  obtain ⟨h1, h2, h3, h4, h5⟩ := h
  exact ⟨by simp [h1], by simp [h2], by simp [h3], by simp [h4], by simp [h5]⟩

/-- The fields of `State.PoolSound` about the entries, as checks that compute. -/
abbrev entryChecks (s : State) : Prop :=
  s.heldBufs.Nodup ∧
  (∀ x ∈ s.tu.urgent, ((s.buf x.buf).state = .queued ∧ (s.buf x.buf).cls = some .urgent) ∧ x.strikes ≤ 2 ∧ x.deferrals = none) ∧
  (∀ x ∈ s.tu.routine, ((s.buf x.buf).state = .queued ∧ (s.buf x.buf).cls = some .routine) ∧ x.strikes ≤ 2 ∧
    ∃ n ∈ x.deferrals.toList, n ≤ 11) ∧
  (∀ x ∈ s.tu.current.toList, (s.buf x.buf).state = .sending ∧ x.strikes ≤ 2 ∧
    ((s.buf x.buf).cls = some .urgent ∧ x.deferrals = none ∨
      (s.buf x.buf).cls = some .routine ∧ ∃ n ∈ x.deferrals.toList, n ≤ 11)) ∧
  (∀ w ∈ s.fu.relayWaits, (s.buf w.buf).state = .relayWait ∧ (s.buf w.buf).cls = some w.cls) ∧
  (∀ r ∈ s.radio.reception.toList, ∀ b ∈ r.buf.toList, ((s.buf b).state = .receiving ∧
    (s.buf b).cls = some (classOfKind (Frame.kind (s.buf b).frame))) ∧ 3 ≤ (s.buf b).frame.length ∧ r.latch ≠ [])

/-- The other fields of `State.PoolSound`, as checks that compute. -/
abbrev poolChecks (s : State) : Prop :=
  ((s.radio.waitSince ≠ none ∨ s.radio.reception ≠ none → s.radio.rx = .receiving ∧ s.radio.owner = .receiveUnit) ∧
    (s.radio.waitSince ≠ none → s.radio.reception = none)) ∧
  (∀ b, b ∉ s.heldBufs → s.buf b = { state := .free, cls := none, frame := [], level := none }) ∧
  ((s.pool.freeCount ≤ 3 → s.pool.busy = true) ∧ (5 ≤ s.pool.freeCount → s.pool.busy = false)) ∧
  (s.placesTaken .urgent ≤ 4 ∧ s.placesTaken .routine ≤ 6) ∧
  ((s.fu.waiters.filterMap Waiter.relayBuf).Nodup ∧
    ∀ w ∈ s.fu.waiters, ∀ b ∈ w.relayBuf.toList, ∃ v ∈ s.fu.relayWaits, v.buf = b ∧ v.cls = .urgent) ∧
  (∀ x ∈ s.fu.seen, x.pins ≤ s.fu.relayWaits.countP (fun w => decide (w.origin = x.origin))) ∧
  s.fu.seen.length ≤ 24 ∧ (s.fu.seen.map (·.origin)).Nodup

theorem poolSound_of {s : State} (h : entryChecks s) (h' : poolChecks s) : s.PoolSound := by
  obtain ⟨h1, h2, h3, h4, h5, h6⟩ := h
  obtain ⟨h7, h8, h9, h10, h11, h12, h13, h14⟩ := h'
  exact
    { onePlace := h1
      urgent := h2
      routine := fun x hx => by
        obtain ⟨hb, hs, n, hn, hle⟩ := h3 x hx
        exact ⟨hb, hs, n, by simpa using hn, hle⟩
      current := fun x hx => by
        obtain ⟨hb, hs, ⟨hc, hd⟩ | ⟨hc, n, hn, hle⟩⟩ := h4 x (by simpa using hx)
        · exact ⟨.urgent, ⟨hb, hc⟩, hs, hd⟩
        · exact ⟨.routine, ⟨hb, hc⟩, hs, n, by simpa using hn, hle⟩
      waits := h5
      reception := fun r hr b hb => h6 r (by simpa using hr) b (by simpa using hb)
      radio := h7
      free := h8
      busy := h9
      places := h10
      waiters := ⟨h11.1, fun b hb => h11.2 _ hb b (by simp [Waiter.relayBuf])⟩
      pins := h12
      seen := h13
      seenKeyed := h14 }

/-- A late end: of the start-up's attempt 1 while the self-test's attempt 1, of serial number 2, is in progress, and one taken
after the guard's expiry. -/
theorem witness_ReadAttemptEnd_late :
    (∀ r ∈ (rereading 1).sc.read, r.number = 1 ∧ r.serial ≠ 1) ∧ Guards.initial.configRead = none := by decide

theorem witness_ReadAttemptEnd_selfTest :
    (rereading 1).sc.read = some { number := 1, serial := 2, purpose := .selfTest } ∧ Record.good recordBytes = true ∧
      (rereading 1).TablesKeyed ∧
    ((rereading 2).sc.read = some { number := 2, serial := 3, purpose := .selfTest } ∧ Record.good (recordBytes.set 40 0) = false ∧ 2 < 3) ∧
    (rereading 3).sc.read = some { number := 3, serial := 4, purpose := .selfTest } ∧
      3 ≤ 3 ∧ (rereading 3).TablesKeyed ∧ (rereading 3).FaultStorable .selfTest (((rereading 3).cfg.address &&& 0xFF00) ||| 6) :=
  ⟨by decide, by decide, keyed_of_empty _ (by decide), by decide, by decide, by decide,
    keyed_of_empty _ (by decide), .inr (.inl (by decide))⟩

theorem witness_RecordRanges : Record.apply recordBytes = some (record .multi) ∧
    (Record.apply (recordBytes.set 5 4)).isSome = false := by decide

theorem witness_ReadGuardExpiry :
    (∀ n ∈ [1, 2, 3], (reading n).sc.read = some { number := n, serial := n, purpose := .startUp } ∧
      (reading n).guards.configRead = some 100000 ∧ 100000 ≤ (reading n).now + 100000 ∧ (reading n).settled = true) ∧
    (∀ n ∈ [2, 3], (rereading n).sc.read = some { number := n, serial := n + 1, purpose := .selfTest } ∧
      (rereading n).guards.configRead = some 1100000 ∧ 1100000 ≤ (rereading n).now + 100000 ∧
      (rereading n).settled = true) ∧
    (rereading 3).FaultStorable .selfTest (((rereading 3).cfg.address &&& 0xFF00) ||| 6) :=
  ⟨by decide, by decide, .inr (.inl (by decide))⟩

/-- A station of the role whose restart-count write is in progress. -/
def writing (role : Role) : State :=
  { State.reset with
    sc := { Sc.initial none with inReset := false, config := some (record role), write := some [17, 0xB2, 7] }
    guards := { Guards.initial with restartWrite := some 50000 } }

/-- A PANEL station in the same place, its profile line at SERVICE. -/
def writingInService (applies : Bool) : State :=
  let s := writing .panel
  { s with
    sc := { s.sc with config := some { record .panel with serviceApplies := applies } }
    lu := { s.lu with profileLine := { raw := true, level := true, debounce := none } } }

theorem witness_RestartCountWriteEnd :
    ((writing .multi).sc.write = some [17, 0xB2, 7] ∧ (writing .multi).sc.config = some (record .multi) ∧
      (record .multi).role = .multi ∧ (writing .multi).radio.owner = .none ∧ (writing .multi).mu.scan = none) ∧
    ((writing .heat).sc.write = some [17, 0xB2, 7] ∧ (writing .heat).sc.config = some (record .heat) ∧
      (record .heat).role ≠ .multi ∧ (writing .heat).mu.scan = none ∧ (writing .heat).sv.selfTest = .idle ∧
      ¬ ((record .heat).role = .panel ∧ (writing .heat).lu.profileLine.level = true)) ∧
    (∀ b ∈ [true, false], (writingInService b).sc.write = some [17, 0xB2, 7] ∧ (record .panel).role ≠ .multi ∧
      (writingInService b).mu.scan = none ∧ (writingInService b).sv.selfTest = .idle ∧ (record .panel).role = .panel ∧
      (writingInService b).lu.profileLine.level = true ∧ (writingInService b).det.state ≠ .verify ∧
      (writingInService b).cfg.serviceApplies = b) := by decide

theorem witness_WriteGuardRaisesConfigWrite :
    (writing .panel).sc.write = some [17, 0xB2, 7] ∧ (writing .panel).sc.config = some (record .panel) ∧
      (writing .panel).guards.restartWrite = some 50000 ∧ 50000 ≤ (writing .panel).now + 50000 ∧
      (writing .panel).settled = true ∧ (writing .panel).FaultStorable .configWrite (record .panel).address :=
  ⟨by decide, by decide, by decide, by decide, by decide, .inr (.inl (by decide))⟩

/-- A MULTI station in step 3. -/
def learningStation : State :=
  { station .multi with
    ev := Evidence.ofRole .multi
    su := { Su.initial with list := .alert, position := 1, nextBoundary := some 1500000 }
    sc := { (station .multi).sc with learning := .learning, learnLimit := some 60000000 } }

/-- The same station with the learning scan 9 in flight and `n` sets counted. -/
def learningScan (n : Nat) : State :=
  { learningStation with
    mu := { Mu.initial with seq := 9, scan := some (.started 9 1000000 .learning) }
    sc := { learningStation.sc with learnCount := n } }

theorem witness_LearningLimitEndsStepThree : learningStation.sc.learnLimit = some 60000000 ∧
    60000000 ≤ learningStation.now + 59000000 ∧ learningStation.sv.selfTest = .idle ∧
    (∀ n ∈ [0, 6, 7, 8], (learningScan n).mu.scan = some (.started 9 1000000 .learning) ∧
      (learningScan n).sc.config = some (record .multi) ∧ (record .multi).role = .multi ∧
      (Scan.started 9 1000000 .learning).awaitedLearning = true ∧
      (Scan.started 9 1000000 .learning).awaitedSelfTest = false ∧ (learningScan n).sc.learning = .learning ∧
      (learningScan n).sc.learnCount = n ∧ (learningScan n).sv.selfTest = .idle) ∧
    (511 : Code).toNat < 512 ∧ 512 ≤ (512 : Code).toNat := by decide

/-- An inert station. -/
def inertStation : State := { State.reset with sc := { Sc.initial none with inReset := false, inert := true } }

theorem witness_ConfigurationAndInertKept :
    (∃ t, exec (.heatTick 0) (station .multi) = .next t ∧ (station .multi).sc.config = some (record .multi) ∧
      (station .multi).sc.inReset = false ∧ ∀ r ∈ (station .multi).sc.read, r.purpose = .selfTest) ∧
    (∃ t, exec (.heatTick 0) inertStation = .next t ∧ inertStation.sc.inert = true) :=
  ⟨⟨_, rfl, by decide, by decide, by decide⟩, ⟨_, rfl, by decide⟩⟩

/-- All eight buffers taken. -/
def fullPool : Pool :=
  { bufs := Vector.replicate 8 { state := .queued, cls := some .routine, frame := [], level := none }, busy := true }

/-- A station with the scan 7 in flight under its guard. -/
def scanning (role : Role) : State :=
  { station role with
    mu := { Mu.initial with seq := 7, scan := some (.started 7 1000000 .schedule) }
    guards := { Guards.initial with scan := some 1005000 } }

theorem witness_ScanCompletionLatches :
    ∀ role ∈ [Role.multi, .heat, .relay, .panel], ∀ p ∈ [Requester.schedule, .learning, .selfTest],
      let s : State := { scanning role with mu := { Mu.initial with seq := 7, scan := some (.started 7 1000000 p) } }
      s.mu.scan = some (.started 7 1000000 p) ∧ s.sc.config = some (record role) ∧
        ((Scan.started 7 1000000 p).awaitedLearning = true ↔ p = .learning) ∧
        ((Scan.started 7 1000000 p).awaitedSelfTest = true ↔ p = .selfTest) := by decide

/-- The clauses of a declaration: a temperature at the heat limit in QUIET, with the own address absent, listed, or absent
from a full list; a FIRE that can be made, and one that waits. -/
theorem witness_ScanCompletionLatches_declares :
    let s := scanning .multi
    let u := after (exec (.scanCompletion 1000 7 40 200 150 432 700) s)
    let own : FireOrigin := { origin := 0x0205, zone := 3, cause := 2, silenced := true }
    let eight := (List.range 8).map (fun k : Nat => { own with origin := BitVec.ofNat 16 (0x301 + k) })
    s.det.state ≠ .fire ∧ u.det.state = .fire ∧ s.det.state ≠ .verify ∧ (∀ f ∈ s.fu.fires, f.origin ≠ 0x0205) ∧
      s.fu.fires.length < 8 ∧ (∃ f ∈ [own], f.origin = 0x0205) ∧ (∀ f ∈ eight, f.origin ≠ 0x0205) ∧ 8 ≤ eight.length ∧
      s.pool.claimAllowed .urgent = true ∧ s.placeFree .urgent = true ∧
      (after (exec (.scanCompletion 1000 7 40 200 150 431 700) s)).det.state ≠ .fire ∧
      fullPool.claimAllowed .urgent = false := by decide +kernel

/-- The clauses of the recipients: runs and counts at 2, codes at the bounds of a part and of the battery. -/
theorem witness_ScanCompletionLatches_recipients :
    let run (raised : Bool) : ValidityRun := { invalid := 2, valid := 2, raised := raised }
    let s (raised : Bool) : State :=
      { scanning .multi with
        mu := { (scanning .multi).mu with smokeRun := run raised, heatRun := run raised }
        sv := { Sv.initial with below := 2, above := 2, completedScans := 2 } }
    (∀ b ∈ [true, false], (s b).TablesKeyed ∧ (s b).mu.smokeRun.invalid = 2 ∧ (s b).mu.smokeRun.valid = 2 ∧
      (s b).mu.smokeRun.raised = b ∧ (s b).mu.heatRun.raised = b ∧ (s b).sv.below = 2 ∧ (s b).sv.above = 2 ∧
      (s b).sv.completedScans = 2) ∧
    512 ≤ (512 : Code).toNat ∧ ¬ 512 ≤ (511 : Code).toNat ∧ (19 : Code).toNat < 20 ∧ 1003 < (1004 : Code).toNat ∧
      (599 : Code).toNat < (record .multi).lowBattery ∧ (record .multi).lowBattery + 25 < (626 : Code).toNat :=
  ⟨fun b _ => ⟨keyed_of_empty _ ⟨rfl, rfl, rfl, rfl, rfl⟩, rfl, rfl, rfl, rfl, rfl, rfl, rfl⟩, by decide⟩

theorem witness_EvidenceFigures :
    let set := sampleSet .multi 1 40 300 210 290 700
    let bad := sampleSet .multi 1 512 300 210 1004 700
    (∃ p h, set.smoke = some p ∧ p.status = .valid ∧ set.heat = some h ∧ h.status = .valid) ∧
      learned.learning = false ∧ (Evidence.ofRole .multi).learning = true ∧
      (∀ p ∈ bad.smoke, p.status = .invalid) ∧ (∃ h, bad.heat = some h ∧ h.status = .invalid) ∧
      ([86, 86, 87, 87, 88, 89, 90, 90] : List Int) = 86 :: ([86, 87, 87, 88, 89, 90] ++ [90]) ∧
      learned.ring.length ≠ 8 :=
  ⟨⟨_, _, rfl, by decide, rfl, by decide⟩, by decide, by decide, by decide, ⟨_, rfl, by decide⟩, by decide, by decide⟩

theorem witness_BaselineStep : (∀ p ∈ (none : Option SmokePart), p.status = .invalid) ∧
    (∀ p ∈ some ({ d := 512, i := 600, b := 600, status := .invalid } : SmokePart), p.status = .invalid) ∧
    ∃ p : SmokePart, p.status = .valid ∧ learned.ibase ≤ 12000 ∧
    { learned with ibase := 12000 }.ibase ≤ 12000 ∧ learned.learning = false ∧
    { learned with learning := true, learnCount := 6 }.learnCount < 7 ∧
    { learned with learning := true, learnCount := 7 }.learnCount = 7 :=
  ⟨by decide, by decide, { d := 40, i := 300, b := 210, status := .valid }, by decide⟩

theorem witness_ScanGuardAbandons :
    (∀ p ∈ [Requester.schedule, .selfTest],
      let s : State := { scanning .heat with mu := { Mu.initial with seq := 7, scan := some (.started 7 1000000 p) } }
      s.mu.scan = some (.started 7 1000000 p) ∧ s.guards.scan = some 1005000 ∧ 1005000 ≤ s.now + 5000 ∧ s.settled = true ∧
        ((Scan.started 7 1000000 p).awaitedSelfTest = true ↔ p = .selfTest)) ∧
    (scanning .heat).FaultStorable .scanStall (scanning .heat).cfg.address :=
  ⟨by decide, .inr (.inl (by decide))⟩

/-- A station with the heat tick at 1.5 s, a candidate and the power state. -/
def ticking (candidate : Option Int) (power : Power) (settle : Timer) : State :=
  { station .multi with
    ev := { learned with heatTick := some 1500000, candidate := candidate }
    su := { (station .multi).su with power := power, settleEnd := settle } }

theorem witness_HeatTickAndHeldWork :
    ((ticking (some 90) .run none).ev.heatTick = some 1500000 ∧ 1500000 ≤ (ticking (some 90) .run none).now + 500000 ∧
      (ticking (some 90) .run none).settled = true ∧ (ticking (some 90) .run none).ev.candidate = some 90 ∧
      (ticking (some 90) .run none).ev.ring.length ≤ 8) ∧
    ((ticking none .run none).settled = true ∧ (ticking none .run none).ev.candidate = none) ∧
    ((ticking none .doze none).su.power = .doze ∧ (ticking none .doze none).su.nextBoundary = some 1500000) ∧
    (ticking none .run (some 1501000)).su.settleEnd ≠ none := by decide

/-- A station in the detection state, with a declaration of 730. -/
def inState (st : DetState) : State :=
  { station .multi with
    ev := { learned with e := 720, esw := 720 }
    det := { Detection.initial with
      state := st
      verifyStart := if st = .verify then some 900 else none
      cause := if st = .fire then some .smoke else none
      evidence := if st = .fire then some 730 else none
      refresh := if st = .fire then some 31000000 else none
      observation := some 5000000 } }

theorem witness_RefreshAsksForFire :
    (inState .fire).det.refresh = some 31000000 ∧ 31000000 ≤ (inState .fire).now + 30000000 ∧
      (inState .fire).settled = true ∧ (inState .fire).det.cause = some .smoke ∧
      (inState .fire).det.evidence = some 730 ∧ (inState .fire).CanOriginate .urgent ∧
      ¬ { inState .fire with pool := fullPool }.CanOriginate .urgent :=
  ⟨by decide, by decide, by decide, by decide, by decide, ⟨by decide, by decide⟩,
    fun h => absurd h.1 (by decide)⟩

/-- The clauses of an accepted urgent offer: a routine frame in progress in each phase, an urgent one, and none. -/
theorem witness_RefreshAsksForFire_preempts :
    (∀ c ∈ [FrameClass.routine, .urgent], ∀ p ∈ [TxPhase.backoff, .assess, .preamble, .body],
      let s := sending c p [] (inState .fire)
      (∃ x, s.tu.current = some x ∧ (s.buf x.buf).cls = some c) ∧ s.tu.phase = p ∧ s.radio.owner ≠ .heldOff ∧
        s.pool.claimAllowed .urgent = true ∧ s.placeFree .urgent = true ∧ s.PoolSound) ∧
    ((inState .fire).tu.current = none ∧ (inState .fire).tu.phase = .idle ∧ (inState .fire).radio.owner ≠ .heldOff ∧
      (inState .fire).PoolSound) :=
  ⟨fun c _ p _ => ⟨⟨_, rfl, by cases c <;> rfl⟩, rfl, nofun, by cases c <;> rfl, by cases c <;> rfl,
    poolSound_of (by cases c <;> cases p <;> decide +kernel) (by cases c <;> cases p <;> decide +kernel)⟩,
    rfl, rfl, by decide, poolSound_of (by decide +kernel) (by decide +kernel)⟩

theorem witness_ServiceLimit : ∀ st ∈ [DetState.verify, DetState.quiet],
    let s := { inState st with det := { (inState st).det with profile := .service, serviceLimit := some 2000000 } }
    s.det.serviceLimit = some 2000000 ∧ 2000000 ≤ s.now + 1000000 ∧ s.settled = true ∧ s.det.profile = .service := by
  decide

theorem witness_ObservationTimer :
    (inState .quiet).det.observation = some 5000000 ∧ 5000000 ≤ (inState .quiet).now + 4000000 ∧
      (inState .quiet).settled = true ∧ (inState .quiet).CanOriginate .routine ∧
      ¬ { inState .watch with pool := fullPool }.CanOriginate .routine :=
  ⟨by decide, by decide, by decide, ⟨by decide, by decide⟩, fun h => absurd h.1 (by decide)⟩

theorem witness_FireLatched :
    ∃ t, exec (.heatTick 0) (inState .fire) = .next t ∧ (∀ dt, Instr.heatTick 0 ≠ .startUpReset dt) ∧
      .resetPress ∉ (inState .fire).su.held ∧ (inState .fire).det.state = .fire ∧
      t.fu.epoch = (inState .fire).fu.epoch :=
  ⟨_, rfl, by simp, by decide, by decide, by decide⟩

theorem witness_DetectionTransitions :
    ((inState .quiet).det.state ≠ .fire ∧ ((inState .quiet).cfg.heatLimit : Int) ≤ 232) ∧
    ((inState .quiet).det.state = .quiet ∧ (inState .quiet).levels.watch ≤ (inState .quiet).ev.e ∧
      (∀ th ∈ (some 231 : Option Int), th < ((inState .quiet).cfg.heatLimit : Int))) ∧
    ((station .multi).ev.e < (station .multi).levels.watch) ∧
    ((inState .watch).det.state = .watch ∧ (inState .watch).levels.alarm ≤ (inState .watch).ev.e) ∧
    ((inState .verify).det.state = .verify ∧ { inState .verify with nt := [neighbour 0x142] }.verifyFires = false) ∧
    { inState .verify with nt := [reporter 0x142 .watch 700 1000] }.verifyFires = true ∧
    (station .multi).ev.e < (inState .verify).levels.alarm - 50 := by decide

/-- The clauses of a change of state: into WATCH with and without a routine claim, into QUIET, and out of VERIFY into WATCH
and by a declaration, with a profile pending. -/
theorem witness_DetectionTransitions_change :
    let watch : State := { station .multi with det := { Detection.initial with state := .watch, hyst := 2 } }
    let verify (p : Profile) (e : Nat) (nt : List Neighbour) : State := { inState .verify with
      ev := { learned with e := e, esw := e }
      det := { (inState .verify).det with pendingProfile := some p, hyst := 2 }
      nt := nt }
    ((inState .quiet).transitions none).det.state = .watch ∧ (inState .quiet).CanOriginate .routine ∧
      ({ inState .quiet with pool := fullPool }.transitions none).det.state = .watch ∧
      ¬ { inState .quiet with pool := fullPool }.CanOriginate .routine ∧ (watch.transitions none).det.state = .quiet ∧
      (∀ p ∈ [Profile.normal, .service], (verify p 0 [neighbour 0x142]).det.pendingProfile = some p ∧
        ((verify p 0 [neighbour 0x142]).transitions none).det.state = .watch ∧
        ((verify p 900 [reporter 0x142 .watch 700 1000]).transitions none).det.state = .fire) ∧
      (let s := verify .service 900 [reporter 0x142 .watch 700 1000]
       s.PoolSound ∧ 4 ≤ s.pool.freeCount ∧ s.placeFree .routine = true) :=
  ⟨by decide +kernel, ⟨by decide, by decide⟩, by decide +kernel, fun h => absurd h.1 (by decide), by decide +kernel,
    by decide +kernel, poolSound_of (by decide +kernel) (by decide +kernel), by decide, by decide⟩

theorem witness_CorroborationScore :
    let l := [reporter 0x142 .watch 500 1000, reporter 0x143 .verify 300 1000, neighbour 0x151, neighbour 0x160]
    List.Perm l (reporter 0x142 .watch 500 1000 :: reporter 0x143 .verify 300 1000 :: neighbour 0x151 :: [neighbour 0x160]) ∧
    (∀ n ∈ [neighbour 0x160], contribution 1000 3 n ≤ contribution 1000 3 (neighbour 0x151)) ∧
    [neighbour 0x160].length < 3 ∧ (∀ n ∈ [neighbour 0x160], contribution 1000 3 n = 0) ∧
    ((inState .verify).det.state = .verify ∧
      (∃ n ∈ [reporter 0x142 .watch 700 1000], 0 < contribution 1000 (inState .verify).cfg.zone n) ∧
      (inState .verify).levels.confirm ≤
        corroboration 1000 3 (inState .verify).ev.e [reporter 0x142 .watch 700 1000]) :=
  ⟨.refl _, by decide⟩

/-- The clauses of a contribution, with the report's age at 4000, 4001, 10000 and 10001 ms. -/
theorem witness_CorroborationScore_contribution :
    (reporter 0x142 .watch 501 1000).status = .live ∧ (reporter 0x142 .watch 501 1000).zone = some 3 ∧
      (reporter 0x142 .quiet 501 1000).report = some { state := .quiet, e := 501, heardAt := 1000 } ∧
      [5000, 5001, 11000, 11001].map (fun ms => contribution ms 3 (reporter 0x142 .watch 501 1000)) = [501, 250, 250, 0] ∧
      contribution 1000 4 (reporter 0x142 .watch 501 1000) = 0 := by decide

/-! ### The neighbour table -/

/-- The sender's part of a frame of `a`. -/
def part (a : Addr) (level : Int) : SenderPart := { addr := a, busy := true, alert := true, level := level, obs := none }

theorem witness_LinkAverage :
    4 * (part 0x142 (-90)).level < (neighbour 0x142).avg ∧ (neighbour 0x142).avg + 8 ≤ 4 * (part 0x142 (-68)).level ∧
      -127 ≤ (part 0x142 (-90)).level ∧ (part 0x142 (-90)).level ≤ 0 ∧ -508 ≤ (neighbour 0x142).avg ∧
      (neighbour 0x142).avg ≤ 0 := by decide

/-- A station with these neighbours. -/
def among (nt : List Neighbour) : State := { station .multi with nt := nt }

/-- Sixteen LIVE neighbours, none protected. -/
def fullTable : List Neighbour := (List.range 16).map (fun k => neighbour (BitVec.ofNat 16 (0x301 + k)))

theorem witness_SenderUpdate :
    ((fullTable.map (·.addr)).Nodup ∧ neighbour 0x301 ∈ fullTable ∧ (neighbour 0x301).addr = (part 0x301 (-70)).addr) ∧
    ((∀ n ∈ fullTable, n.addr ≠ (part 0x142 (-96)).addr) ∧ (part 0x142 (-96)).level < -95) ∧
    ((∀ n ∈ [neighbour 0x301], n.addr ≠ (part 0x142 (-95)).addr) ∧ -95 ≤ (part 0x142 (-95)).level ∧
      [neighbour 0x301].length < 16) ∧
    (16 ≤ fullTable.length ∧ evictionCandidate 1000 (-64) fullTable = some (neighbour 0x301)) ∧
    evictionCandidate 1000 (-65) fullTable = none ∧
    (let obs (code : Byte) : SenderPart := { part 0x301 (-70) with obs := some (code, 1001, 9) }
     (obs 4).obs = some (4, 1001, 9) ∧ 3 < (4 : Byte).toNat ∧ (obs 3).obs = some (3, 1001, 9) ∧
       (3 : Byte).toNat = DetState.fire.code) := by decide

/-- The eviction's clauses: an entry that is not LIVE, a LIVE one 6 dB weaker, and a protected report of 59999 ms. -/
theorem witness_SenderUpdate_eviction :
    let new : Neighbour := { neighbour 0x310 with status := .new }
    let fire : Neighbour := reporter 0x302 .fire 800 1000
    evictionCandidate 60999 (-90) [neighbour 0x301, new] = some new ∧
      evictionCandidate 60999 (-64) [neighbour 0x301, fire] = some (neighbour 0x301) ∧
      evictionCandidate 60999 (-64) [fire] = none ∧ evictionCandidate 61000 (-64) [fire] = some fire := by decide

/-- What the supervision unit is told: an entry becomes LIVE, a refusal, and neither. -/
theorem witness_SenderUpdate_told :
    (takeSender 1000000 1000 270000 (part 0x301 (-70)) [{ neighbour 0x301 with status := .lost }]).1 = .updated true ∧
      (takeSender 1000000 1000 270000 (part 0x142 (-70)) fullTable).1 = .refused ∧
      (takeSender 1000000 1000 270000 (part 0x301 (-70)) fullTable).1 = .updated false ∧
      (among fullTable).faults.records = [] := by decide

/-- A neighbour whose hold runs to `e`. -/
def holding (a : Addr) (e : Us) : Neighbour := { neighbour a with hold := some e }

theorem witness_NeighbourTimers :
    (((among [holding 0x142 2000000, holding 0x143 3000000]).nt.map (·.addr)).Nodup ∧
      holding 0x142 2000000 ∈ (among [holding 0x142 2000000, holding 0x143 3000000]).nt ∧
      (holding 0x142 2000000).hold = some 2000000 ∧ 2000000 ≤ (station .multi).now + 1000000 ∧
      (station .multi).settled = true ∧ (holding 0x143 3000000).hold ≠ none) ∧
    ((neighbour 0x142).supervision = some 271000 ∧ 271000 ≤ ((among [neighbour 0x142]).now + 270000000) / 1000 ∧
      (neighbour 0x142).status = .live ∧ (among [neighbour 0x142]).FaultStorable .neighbourLost (neighbour 0x142).addr) ∧
    ({ neighbour 0x142 with status := .new }.status = .new ∧ { neighbour 0x142 with status := .new }.hold = none) :=
  ⟨by decide, ⟨by decide, by decide, by decide, .inr (.inl (by decide))⟩, by decide⟩

/-! ### Reception -/

/-- A station that samples the channel to 1.004 s. -/
def sampling (waiting : Bool) : State :=
  { station .multi with
    radio := { Radio.initial with owner := .receiveUnit, rx := .sampling, sampleEnd := some 1004000 }
    tu := { Tu.initial with waiting := waiting } }

/-- A station that waits for a delimiter. -/
def awaiting : State :=
  { station .multi with
    radio := { Radio.initial with owner := .receiveUnit, rx := .receiving, waitSince := some 1000, waitEnd := some 1540000 } }

theorem witness_FindingAFrame :
    ((sampling true).radio.rx = .sampling ∧ (sampling true).radio.sampleEnd = some 1004000 ∧
      1004000 ≤ (sampling true).now + 4000 ∧ (sampling true).tu.waiting = true ∧ (sampling false).tu.waiting = false ∧
      (-100 : Int) < -99 ∧ (-100 : Int) ≤ -100) ∧
    { station .multi with radio := { Radio.initial with rx := .listening } }.radio.rx = .listening ∧
    awaiting.radio.waitSince ≠ none := by decide

/-- A station that takes a frame: the header bytes so far, the claimed buffer, the body length. -/
def taking (latch : List Byte) (buf : Option (Fin 8)) (len : Option Byte) : State :=
  { station .multi with
    radio := { Radio.initial with
      owner := .receiveUnit
      rx := .receiving
      reception := some { level := -70, latch := latch, buf := buf, refused := buf.isNone, bodyLen := len } }
    pool := Pool.initial.put 0 { state := .receiving, cls := some .urgent, frame := (fireFrame 0).take 7, level := some (-70) }
    guards := { Guards.initial with header := some 1002000, frame := some 1012000 } }

theorem witness_ReceptionLost :
    (awaiting.radio.waitSince ≠ none ∧ awaiting.radio.waitEnd = some 1540000 ∧ 1540000 ≤ awaiting.now + 540000) ∧
    (∃ r, (taking [] none none).radio.reception = some r ∧ r.latch = []) := ⟨by decide, _, rfl, rfl⟩

theorem witness_HeaderBytes :
    (∃ r, (taking [] none none).radio.reception = some r ∧ r.latch = [] ∧
      1 ≤ (taking [] none none).pool.freeCount ∧ 5 ≤ (taking [] none none).pool.freeCount) ∧
    { taking [] none none with pool := fullPool }.pool.freeCount = 0 ∧
    (∃ r, (taking [0x21, 0x5C, 2] (some 0) none).radio.reception = some r ∧ r.latch ≠ [] ∧ r.bodyLen = none ∧
      r.buf = some 0 ∧ (48 : Byte).toNat ≤ 48 ∧ 48 < (49 : Byte).toNat) ∧
    (∃ r, (taking [0x21, 0x5C, 2] none none).radio.reception = some r ∧ r.latch ≠ [] ∧ r.bodyLen = none ∧ r.buf = none) ∧
    (taking [0x21, 0x5C, 2] (some 0) none).fu.pendingHealth = false :=
  ⟨⟨_, rfl, rfl, by decide⟩, by decide, ⟨_, rfl, by simp, rfl, rfl, by decide⟩, ⟨_, rfl, by simp, rfl, rfl⟩, rfl⟩

/-- A sound pool whose FREE count of 4 an allowed claim lowers, which raises the busy flag and asks for an OBSERVATION. -/
theorem witness_HeaderBytes_busy :
    let s : State := { taking [] none none with
      pool := { fullPool with bufs := (List.range 4).foldl (fun v k => v.set! k Buffer.empty) fullPool.bufs, busy := false }
      tu := { Tu.initial with routine := ([4, 5, 6, 7] : List (Fin 8)).map (fun b =>
        { buf := b, mark := .relay, deferrals := some 0, strikes := 0, headTime := none }) } }
    s.PoolSound ∧ s.pool.busy = false ∧ s.pool.freeCount = 4 ∧ s.placeFree .routine = true :=
  ⟨poolSound_of (by decide +kernel) (by decide +kernel), by decide, by decide, by decide⟩

theorem witness_FrameEnd :
    (∃ r, (taking [0x21, 0x5C, 2] (some 0) (some 11)).radio.reception = some r ∧ r.latch ≠ [] ∧ r.buf = some 0 ∧
      r.bodyLen = some 11) ∧
    (∃ r, (taking [0x21, 0x5C, 2] none (some 11)).radio.reception = some r ∧ r.latch ≠ [] ∧ r.buf = none) ∧
    (∃ r, (taking [0x21, 0x5C, 2] (some 0) none).radio.reception = some r ∧ r.buf = some 0 ∧ r.bodyLen = none) ∧
    validate (record .multi) 13 ((fireFrame 0).take 7 ++ (fireFrame 0).drop 7) = none ∧
    validate (record .multi) 12 ((fireFrame 0).take 7 ++ ((fireFrame 0).drop 7).take 12) = some .rxFormat :=
  ⟨⟨_, rfl, by simp, rfl, rfl⟩, ⟨_, rfl, by simp, rfl⟩, ⟨_, rfl, rfl, rfl⟩, by decide +kernel, by decide⟩

/-- The dispatch's clauses: an OBSERVATION and a flood; an epoch ahead by 1, 127, 128 and 0, and a kind not judged. -/
theorem witness_FrameEnd_dispatch :
    Frame.kind (frameOf 1 0 0x310 [0, 0, 0, 0, 0, 3, 0]) = 1 ∧ Frame.kind (fireFrame 4) = 2 ∧
      [5, 131, 132, 4].map (fun e => (Frame.epoch (fireFrame e) - 4).toNat) = [1, 127, 128, 0] ∧
      Frame.kind (frameOf 5 0 0x310 [0x10, 3, 1, 1, 0x1C, 9, 3, 0, 1]) = 5 := by decide +kernel

/-- One frame for each check, in their order, and frames that pass; others stand in `test_judged`. -/
theorem witness_ValidFrame :
    [validate (record .multi) 12 (fireFrame 4), validate (record .multi) 13 (fireFrame 4 ++ [0]),
      validate (record .multi) 10 (frameOf 8 0 0x310 [0x10, 3, 1, 1, 0x1C, 0, 3, 0]),
      validate (record .multi) 3 (frameOf 3 0 0x310 [0x10]),
      validate (record .multi) 10 (frameOf 3 0 0x310 [0x10, 3, 1, 1, 0x2C, 0, 4, 0])] =
        [some .rxFormat, none, some .rxFormat, some .rxFormat, some .rxFormat] ∧
    validate (record .multi) 13 ((fireFrame 4).set 6 12) = some .rxFormat ∧
    validate (record .multi) 2 (frameOf 3 0 0x0205 []) = some .rxFormat ∧
    validate { record .multi with networkId := 1 } 2 (frameOf 3 0 0x310 []) = some .rxFormat ∧
    validate (record .multi) 2 ((frameOf 3 0 0x310 []).set 3 1) = some .rxCrc ∧
    validate (record .multi) 15 (frameOf 6 0 0x310 [0x10, 3, 1, 1, 0x1C, 0, 1, 0, 1, 1, 0x10, 3, 1]) = none := by
  decide +kernel

theorem witness_OwnFloodIsValidElsewhere :
    let c := record .panel
    let c' := { record .multi with address := 0x0310 }
    (OwnFrame.silence ≠ .observation ∧ c'.networkId = c.networkId ∧ Addr.valid c.address = true ∧
      c'.address ≠ c.address ∧ 1 ≤ c.hopLimit ∧ c.hopLimit ≤ 15 ∧ c.role = .panel) ∧
    ((record .heat).role = .multi ∨ (record .heat).role = .heat) ∧
    (∀ items, OwnFrame.fault [(.chamber, 0x0205, true)] = .fault items → 1 ≤ items.length ∧ items.length ≤ 4) :=
  ⟨by decide, by decide, fun items h => by cases h; decide⟩

/-! ### Radio restart and transmission -/

/-- A station on whose radio side every guard runs to 1.002 s. -/
def guarded : State :=
  { sending .urgent .body (fireFrame 0) (station .multi) with
    guards := { Guards.initial with header := some 1002000, frame := some 1002000, assessment := some 1002000,
                                    body := some 1002000, calibration := some 1002000 } }

theorem witness_RadioGuardRestarts :
    (∀ g ∈ [GuardName.header, .frame, .assessment, .body, .calibration], guarded.guards.get g = some 1002000) ∧
      1002000 ≤ guarded.now + 2000 ∧ guarded.settled = true ∧ guarded.fu.pendingHealth = false ∧
      guarded.FaultStorable .radioStall guarded.cfg.address ∧ guarded.TablesKeyed :=
  ⟨by decide, by decide, by decide, by decide, .inr (.inl (by decide)), keyed_of_empty _ (by decide)⟩

/-- The frame in progress has two strikes. -/
def struck : State :=
  { guarded with tu := { guarded.tu with current := guarded.tu.current.map (fun x => { x with strikes := 2 }) } }

theorem witness_RestartFrame :
    (∃ e, guarded.tu.current = some e ∧ e.strikes < 2 ∧ (guarded.buf e.buf).cls = some .urgent) ∧
    (∃ e, struck.tu.current = some e ∧ 2 ≤ e.strikes) ∧
    (∃ e, (sending .routine .backoff [] (station .multi)).tu.current = some e ∧
      ((sending .routine .backoff [] (station .multi)).buf e.buf).cls ≠ some .urgent) :=
  ⟨⟨_, rfl, by decide, by decide⟩, ⟨_, rfl, by decide⟩, ⟨_, rfl, by decide⟩⟩

/-- The restart's clauses on the frame in progress: a sound pool whose frame has a strike left, and one whose frame is lost. -/
theorem witness_RadioGuardRestarts_current :
    guarded.PoolSound ∧ struck.PoolSound ∧ struck.TablesKeyed ∧
      (∃ x, struck.tu.current = some x ∧ 2 ≤ x.strikes ∧ (struck.buf x.buf).cls = some .urgent) ∧
      (∃ x, guarded.tu.current = some x ∧ ¬ 2 ≤ x.strikes) :=
  ⟨poolSound_of (by decide +kernel) (by decide +kernel), poolSound_of (by decide +kernel) (by decide +kernel),
    keyed_of_empty _ (by decide), ⟨_, rfl, by decide, by decide⟩, ⟨_, rfl, by decide⟩⟩

/-- The restart's clauses on a frame being received and on the history: a sound pool with a claimed buffer, no waiter and
RADIO-STALL standing, and histories that the restart at 1002 ms brings to three within and not within 600 s. -/
theorem witness_RadioGuardRestarts_reception :
    let s : State := { taking [0x21, 0x5C, 2] (some 0) none with
      faults := { FaultLog.initial with records := [.raised .radioStall 0x0205 900] } }
    s.PoolSound ∧ s.TablesKeyed ∧ s.FaultActive .radioStall s.cfg.address ∧ s.fu.waiters = [] ∧
      s.fu.pendingProfile = none ∧ s.fu.pendingHealth = false ∧ 3 ≤ s.pool.freeCount ∧ s.tu.current = none ∧
      (∃ r, s.radio.reception = some r ∧ r.buf = some 0) ∧ s.guards.get .header = some 1002000 ∧ s.settled = true ∧
      [700, 800] ++ [1002] = 700 :: [800, 1002] ∧ 1002 - 700 < 600000 ∧ ¬ 601002 - 1002 < 600000 :=
  ⟨poolSound_of (by decide +kernel) (by decide +kernel), ⟨by decide, by decide, by decide, by decide, by decide⟩,
    ⟨_, .head _, rfl, rfl, rfl⟩, rfl, rfl, rfl, by decide, rfl, ⟨_, rfl, rfl⟩, rfl, rfl, rfl, by decide, by decide⟩

/-- A station whose radio is held off by a calibration begun at 0.999 s. -/
def heldOffStation : State :=
  { station .multi with
    radio := { Radio.initial with owner := .heldOff }
    guards := { Guards.initial with calibration := some 1002000 } }

theorem witness_CalibrationCompletion : heldOffStation.radio.owner = .heldOff ∧
    heldOffStation.guards.calibration = some (999000 + 3000) ∧
    heldOffStation.guards.calibration ≠ some (996000 + 3000) := by decide

/-- A station with one entry of the class queued in buffer 0. -/
def queuedStation (cls : FrameClass) (nt : List Neighbour) : State :=
  let e : TxEntry := { buf := 0, mark := .own, deferrals := none, strikes := 0, headTime := none }
  { station .multi with
    nt := nt
    pool := Pool.initial.put 0 { state := .queued, cls := some cls, frame := [], level := none }
    tu := { Tu.initial with
      urgent := if cls = .urgent then [e] else []
      routine := if cls = .routine then [e] else [] } }

theorem witness_Selection :
    heldOffStation.radio.owner = .heldOff ∧
    (∀ c ∈ [FrameClass.urgent, .routine], (queuedStation c []).tu.phase = .idle ∧
      (queuedStation c []).tu.current = none ∧ (queuedStation c []).radio.owner ≠ .heldOff ∧
      ((queuedStation c []).buf 0).cls = some c) ∧
    (∃ e rest, (queuedStation .urgent []).tu.urgent = e :: rest ∧ e.buf = 0) ∧
    ((queuedStation .routine []).tu.urgent = [] ∧ ∃ e rest, (queuedStation .routine []).tu.routine = e :: rest ∧
      ∀ n ∈ (queuedStation .routine []).nt, n.hold = none) ∧
    (∃ n ∈ (queuedStation .routine [holding 0x142 2000000]).nt, n.hold ≠ none) :=
  ⟨by decide, by decide, ⟨_, _, rfl, rfl⟩, ⟨rfl, _, _, rfl, by decide⟩, by decide⟩

/-- A station whose backoff ends at 1.01 s, with the radio as given. -/
def backingOff (cls : FrameClass) (nt : List Neighbour) (radio : Radio) : State :=
  let s := sending cls .backoff [] (station .multi)
  { s with nt := nt, radio := radio, tu := { s.tu with backoff := some 1010000 } }

theorem witness_BackoffEnd :
    (∀ r ∈ [Radio.initial, { Radio.initial with owner := .heldOff }, (sampling false).radio, awaiting.radio],
      (backingOff .urgent [] r).tu.phase = .backoff ∧ (backingOff .urgent [] r).tu.backoff = some 1010000 ∧
      1010000 ≤ (backingOff .urgent [] r).now + 10000 ∧ (backingOff .urgent [] r).tu.waiting = false ∧
      (backingOff .urgent [] r).settled = true ∧ (backingOff .urgent [] r).currentClass ≠ some .routine) ∧
    ((backingOff .routine [holding 0x142 2000000] Radio.initial).currentClass = some .routine ∧
      ∃ n ∈ (backingOff .routine [holding 0x142 2000000] Radio.initial).nt, n.hold ≠ none) := by decide

/-- The return's clauses: no urgent frame, a radio held off, and an urgent frame that is then selected. -/
theorem witness_BackoffEnd_return :
    let s := backingOff .routine [holding 0x142 2000000] Radio.initial
    let u : TxEntry := { buf := 1, mark := .own, deferrals := none, strikes := 0, headTime := none }
    (∃ x, s.tu.current = some x ∧ (s.buf x.buf).cls = some .routine ∧ u.buf ≠ x.buf) ∧
      (∃ n ∈ s.nt, n.hold ≠ none) ∧ s.tu.urgent = [] ∧ s.radio.owner ≠ .heldOff ∧
      { s with tu := { s.tu with urgent := [u] } }.tu.urgent = [u] :=
  ⟨⟨_, rfl, rfl, by decide⟩, by decide, rfl, by decide, rfl⟩

theorem witness_BusyAssessment :
    (∃ e, (sending .urgent .assess [] (station .multi)).tu.current = some e ∧ e.deferrals = none ∧
      ((sending .urgent .assess [] (station .multi)).buf e.buf).cls = some .urgent) ∧
    (∃ e, (sending .routine .assess [] (station .multi)).tu.current = some e ∧ e.deferrals = some 0 ∧ 0 < 11 ∧
      ((sending .routine .assess [] (station .multi)).buf e.buf).cls = some .routine ∧
      { e with deferrals := some 10 }.deferrals = some 10 ∧ { e with deferrals := some 11 }.deferrals = some 11) ∧
    (let s := sending .routine .assess [] (station .multi)
     (s.buf 0).state ≠ .free ∧ 3 ≤ s.pool.freeCount ∧ s.fu.waiters = [] ∧ s.fu.pendingProfile = none ∧
       s.fu.pendingHealth = false) := ⟨⟨_, rfl, rfl, rfl⟩, ⟨_, rfl, rfl, by decide, rfl, rfl, rfl⟩, by decide⟩

/-- A station whose TU holds the radio in the phase. -/
def onRadio (cls : FrameClass) (phase : TxPhase) (nt : List Neighbour) : State :=
  let s := sending cls phase (fireFrame 0) (station .multi)
  { s with nt := nt, radio := { Radio.initial with owner := .tu }, tu := { s.tu with preambleEnd := some 1520000 } }

theorem witness_AssessmentEnd : (onRadio .routine .assess []).tu.phase = .assess ∧
    (onRadio .routine .assess []).radio.owner = .tu ∧ (-100 : Int) ≤ -100 ∧ (-100 : Int) < -99 ∧
    (let s := onRadio .routine .assess [neighbour 0x142]
     s.currentClass ≠ some .urgent ∧ (∃ n ∈ s.nt, n.status = .live) ∧
       (∀ n ∈ s.nt, n.status = .live → n.alert = true ∧ (s.now + 2000000) / 1000 - n.lastHeard ≤ 2000) ∧
       ¬ (∀ n ∈ s.nt, n.status = .live → n.alert = true ∧ (s.now + 2001000) / 1000 - n.lastHeard ≤ 2000)) := by decide

/-- The clauses of the watch: one on the frame in progress, running or expired, with another urgent entry and with none; one
that runs on another frame; and none. -/
theorem witness_AssessmentEnd_watch :
    let u : TxEntry := { buf := 1, mark := .relay, deferrals := none, strikes := 0, headTime := none }
    let s (head : Option Ms) (w : Watch) (l : List TxEntry) : State := { onRadio .urgent .assess [] with
      tu := { (onRadio .urgent .assess []).tu with
        current := (onRadio .urgent .assess []).tu.current.map (fun x => { x with headTime := head })
        watch := w
        urgent := l } }
    (∀ head ∈ [none, some 1000], ∀ w ∈ [Watch.stopped, .running 11000000, .expired], ∀ l ∈ [[], [u]],
      (s head w l).tu.phase = .assess ∧ (s head w l).tu.watch = w ∧ (s head w l).tu.urgent = l ∧
        ∀ x ∈ (s head w l).tu.current.toList, x.headTime = head) ∧ [u] = u :: [] := by decide

theorem witness_PreambleEnd :
    ((onRadio .urgent .preamble []).tu.phase = .preamble ∧ (onRadio .urgent .preamble []).tu.preambleEnd = some 1520000 ∧
      1520000 ≤ (onRadio .urgent .preamble []).now + 520000 ∧ (onRadio .urgent .preamble []).currentClass = some .urgent ∧
      Frame.kind ((onRadio .urgent .preamble []).buf 0).frame ≠ kindObservation) ∧
    (∃ x, (onRadio .urgent .preamble []).tu.current = some x ∧ x.buf = 0 ∧ x.mark = .own) ∧
    Frame.kind ((sending .routine .preamble (Frame.compose (record .multi) kindObservation []) (station .multi)).buf 0).frame
      = kindObservation ∧
    ((onRadio .routine .preamble [holding 0x142 2000000]).currentClass = some .routine ∧
      ∃ n ∈ (onRadio .routine .preamble [holding 0x142 2000000]).nt, n.hold ≠ none) :=
  ⟨by decide, ⟨_, rfl, rfl, rfl⟩, by decide, by decide⟩

/-- The clauses of an OBSERVATION's body: each role, with and without the smoke figures and a temperature. -/
theorem witness_PreambleEnd_observation :
    ∀ role ∈ [Role.multi, .heat, .relay, .panel], ∀ sig ∈ [some 300, none], ∀ th ∈ [some (86 : Int), none],
      let s : State := { station role with ev := { learned with smoke := sig, theta := th } }
      let t := sending .routine .preamble (Frame.compose s.cfg kindObservation []) s
      t.cfg.role = role ∧ t.ev.smoke = sig ∧ t.ev.ratio = some 63 ∧ t.ev.theta = th ∧ t.nt = [] ∧
        (∀ x ∈ t.tu.current.toList, x.mark = .own ∧ Frame.kind (t.buf x.buf).frame = kindObservation) := by
  decide +kernel

theorem witness_BodyEnd :
    (onRadio .urgent .body []).tu.phase = .body ∧ (∃ x, (onRadio .urgent .body []).tu.current = some x ∧ x.mark = .own ∧
      ((onRadio .urgent .body []).buf x.buf).cls = some .urgent) ∧
      (onRadio .urgent .body []).radio.owner = .tu ∧ (onRadio .urgent .body []).fu.pendingHealth = false ∧
      (onRadio .urgent .body []).TablesKeyed ∧
      Frame.kind ((sending .routine .body (frameOf 6 0 0x0205 []) (station .multi)).buf 0).frame = 6 :=
  ⟨rfl, ⟨_, rfl, rfl, rfl⟩, rfl, rfl, keyed_of_empty _ (by decide), by decide +kernel⟩

/-- A station whose channel-blocked watch runs to 11 s. -/
def watched (power : Power) : State :=
  { queuedStation .urgent [] with
    tu := { (queuedStation .urgent []).tu with watch := .running 11000000 }
    su := { (station .multi).su with power := power } }

theorem witness_WatchExpiry :
    (watched .run).tu.watch = .running 11000000 ∧ 11000000 ≤ (watched .run).now + 10000000 ∧
      (watched .run).su.power = .run ∧ (watched .run).FaultStorable .channelBlocked (watched .run).cfg.address ∧
      (watched .doze).su.power = .doze := ⟨rfl, by decide, rfl, .inr (.inl (by decide)), rfl⟩

/-! ### Flooding -/

theorem witness_SeenJudgement :
    let x : SeenEntry := { origin := 0x205, run := 9, h := 2, marks := [1], updated := 0, pins := 0 }
    ([x].map (·.origin)).Nodup ∧ x ∈ [x] ∧ 299999 - x.updated < 300000 ∧
      newer (10 : BitVec 8) x.run = true ∧ older (8 : BitVec 8) x.run = true ∧
      [3, 129, 2, 1, 0, 251, 250, 130].map (fun q => (x.h - q).toNat) = [255, 129, 0, 1, 2, 7, 8, 128] ∧
      1 ∈ x.marks ∧ 0 ∉ x.marks := by decide

/-- An origin without an entry: a list with room, and a full one whose entry 0x0400 gives way. -/
theorem witness_SeenJudgement_absent :
    let e (k : Nat) : SeenEntry :=
      { origin := BitVec.ofNat 16 (0x0400 + k), run := 9, h := 2, marks := [], updated := 100000, pins := k % 2 }
    let full := (List.range 24).map e
    (∀ x ∈ full, x.origin = 0x0205 → x.pins = 0 ∧ 300000 ≤ 200000 - x.updated) ∧
      24 ≤ (full.filter (fun x => decide (x.pins ≠ 0 ∨ 200000 - x.updated < 300000))).length ∧
      ([e 0].filter (fun x => decide (x.pins ≠ 0 ∨ 200000 - x.updated < 300000))).length < 24 ∧
      e 0 ∈ full ∧ (e 0).pins = 0 ∧
      (∀ z ∈ full, z.pins = 0 → (e 0).updated < z.updated ∨ (e 0).updated = z.updated ∧
        (e 0).origin.toNat ≤ z.origin.toNat) := by decide +kernel

/-- The three outcomes of a dispatched flood. -/
theorem witness_SeenJudgement_dispatch :
    let x : SeenEntry := { origin := 0x0310, run := 17, h := 203, marks := [], updated := 1000, pins := 0 }
    (seenTake 1000 0x0310 17 203 []).1 = .accepted ∧ (seenTake 1000 0x0310 17 203 [x]).1 = .duplicate ∧
      (seenTake 1000 0x0310 16 203 [x]).1 = .stale := by decide

/-- A PANEL station with one fire listed, the silence and reset keys pressed 50 ms ago. -/
def panelStation : State :=
  { station .panel with
    fu := { (station .panel).fu with fires := [{ origin := 0x310, zone := 7, cause := 1, silenced := false }], epoch := 4 }
    lu := { (station .panel).lu with
      silenceLine := { raw := true, level := false, debounce := some 1050000 }
      resetLine := { raw := true, level := false, debounce := some 1050000 } } }

theorem witness_PanelPresses :
    panelStation.isPanel = true ∧ panelStation.sc.learning = .ended ∧ panelStation.sc.inert = false ∧
      panelStation.su.power = .run ∧ panelStation.lu.silenceLine.debounce = some 1050000 ∧
      1050000 ≤ panelStation.now + 50000 ∧ panelStation.lu.silenceLine.raw = true ∧
      panelStation.lu.silenceLine.level = false ∧ panelStation.lu.resetLine.debounce = some 1050000 ∧
      panelStation.lu.resetLine.raw = true ∧ panelStation.lu.resetLine.level = false ∧
      panelStation.CanOriginate .urgent ∧ ¬ { panelStation with pool := fullPool }.CanOriginate .urgent :=
  ⟨rfl, rfl, rfl, rfl, rfl, by decide, rfl, rfl, rfl, rfl, rfl, ⟨by decide, by decide⟩,
    fun h => absurd h.1 (by decide)⟩

/-- The profile line's clauses: a change to SERVICE and one to NORMAL, in each case of the detection unit's handling. -/
theorem witness_PanelPresses_profile :
    ∀ raw ∈ [true, false], ∀ st ∈ [DetState.verify, .quiet], ∀ p ∈ [Profile.normal, .service],
      let s : State := { panelStation with
        det := { Detection.initial with state := st, profile := p }
        lu := { panelStation.lu with profileLine := { raw := raw, level := !raw, debounce := some 1050000 } } }
      s.lu.profileLine.debounce = some 1050000 ∧ s.lu.profileLine.raw ≠ s.lu.profileLine.level ∧
        s.cfg.serviceApplies = true ∧ s.det.state = st ∧ s.det.profile = p ∧ s.pool.claimAllowed .routine = true ∧
        s.placeFree .routine = true := by decide

/-- A sound pool with an old FIRE in the urgent queue, which the channel-blocked watch is on. -/
theorem witness_PanelPresses_purge :
    let x : TxEntry := { buf := 0, mark := .own, deferrals := none, strikes := 0, headTime := some 1000 }
    let s : State := { panelStation with
      pool := Pool.initial.put 0 { state := .queued, cls := some .urgent, frame := fireFrame 4, level := none }
      tu := { Tu.initial with urgent := [x], watch := .running 11000000 } }
    s.PoolSound ∧ (s.tu.phase = .idle → s.tu.current = none) ∧ x ∈ s.tu.urgent ∧ (s.buf x.buf).frame = fireFrame 4 ∧
      Frame.kind (fireFrame 4) = 2 ∧ older (Frame.epoch (fireFrame 4)) 5 = true ∧ x.headTime ≠ none ∧
      panelStation.PoolSound :=
  ⟨poolSound_of (by decide +kernel) (by decide +kernel), by decide, by decide, rfl, by decide +kernel, by decide +kernel,
    by decide, poolSound_of (by decide +kernel) (by decide +kernel)⟩

theorem witness_FireOriginsStay :
    ∃ t, exec (.debounceEnd 50000 .silence) panelStation = .next t ∧
      (∀ dt, Instr.debounceEnd 50000 .silence ≠ .startUpReset dt) ∧ .resetPress ∉ panelStation.su.held ∧
      t.fu.epoch = panelStation.fu.epoch ∧
      { origin := 0x310, zone := 7, cause := 1, silenced := false } ∈ panelStation.fu.fires :=
  ⟨_, rfl, by simp, by decide, by decide, by decide⟩

/-- The kind action's clauses: a listed origin, an absent one with room and with none; the seven kinds; a remote fault
present, absent with room and with none. -/
theorem witness_FireOriginsStay_actions :
    Frame.origin (fireFrame 4) = 0x0310 ∧ (∃ x ∈ panelStation.fu.fires, x.origin = 0x0310) ∧
      (∀ x ∈ (station .panel).fu.fires, x.origin ≠ 0x0310) ∧ (station .panel).fu.fires.length < 8 ∧
      [2, 3, 4, 5, 6, 7].map (fun k : Byte => Frame.kind (frameOf k 0 0x0422 [])) = [2, 3, 4, 5, 6, 7] ∧
      (let entry (k : Nat) : RemoteFault := { origin := 0x0310, code := 1, subject := BitVec.ofNat 16 k }
       entry 3 ∈ (List.range 16).map entry ∧ entry 16 ∉ (List.range 16).map entry ∧
         ((List.range 16).map entry).length = 16 ∧ ([] : List RemoteFault).length < 16) := by decide +kernel

/-- A relay wait in buffer 0 that ends at 1.008 s. -/
def wait (cls : FrameClass) : RelayWait :=
  { buf := 0, origin := 0x310, run := 17, seq := 203, cls := cls, endsAt := 1008000, copies := 0, running := true }

/-- A station with that relay wait; `taken` places of each queue are taken. -/
def relaying (cls : FrameClass) (taken : Nat) : State :=
  let e : TxEntry := { buf := 1, mark := .own, deferrals := some 0, strikes := 0, headTime := none }
  { station .multi with
    pool := Pool.initial.put 0 { state := .relayWait, cls := some cls, frame := fireFrame 0, level := some (-70) }
    tu := { Tu.initial with urgent := List.replicate taken e, routine := List.replicate taken e }
    fu := { Fu.initial with relayWaits := [wait cls] } }

theorem witness_RelayWaitEnd :
    (∀ s ∈ [relaying .urgent 0, relaying .urgent 4], s.relayWaitOf (wait .urgent).buf = some (wait .urgent) ∧
      (wait .urgent).running = true ∧ (wait .urgent).endsAt ≤ s.now + 8000 ∧ s.settled = true) ∧
    ((relaying .routine 6).relayWaitOf (wait .routine).buf = some (wait .routine) ∧ (relaying .routine 6).settled = true ∧
      (relaying .routine 6).fu.pendingHealth = false) ∧
    (relaying .urgent 0).placeFree .urgent = true ∧ (relaying .urgent 4).placeFree .urgent = false ∧
    .relay 0 ∉ (relaying .urgent 4).fu.waiters ∧ (relaying .routine 6).placeFree .routine = false := by decide

/-- The relay's clauses: hops below the limit and at it; a copy heard while the wait runs, a routine second copy, and none. -/
theorem witness_RelayWaitEnd_copies :
    Frame.hops (fireFrame 4) < Frame.hopLimit (fireFrame 4) ∧ 12 ≤ (fireFrame 4).length ∧
      (let f := frameOf 2 0x0A 0x0422 [0x10, 0x03, 17, 203, 0xCC, 0, 0, 7, 1, 0xDA, 0x02]
       Frame.hopLimit f ≤ Frame.hops f) ∧
      (∀ c ∈ [FrameClass.urgent, .routine], wait c ∈ (relaying c 0).fu.relayWaits ∧ (wait c).running = true ∧
        (wait c).origin = 0x310 ∧ (wait c).run = 17 ∧ (wait c).seq = 203 ∧ (wait c).copies = 0 ∧
        (∀ x ∈ (relaying c 0).fu.relayWaits, x = wait c)) ∧
      1 ≤ { wait .routine with copies := 1 }.copies ∧
      (∀ w ∈ (station .multi).fu.relayWaits, ¬ w.running = true) := by decide +kernel

/-- A sound pool with the urgent relay wait of buffer 0 and a routine frame in BACKOFF in buffer 1. -/
def relayingUnder (phase : TxPhase) : State :=
  { relaying .urgent 0 with
    pool := (relaying .urgent 0).pool.put 1 { state := .sending, cls := some .routine, frame := [], level := none }
    tu := { Tu.initial with
      phase := phase
      current := some { buf := 1, mark := .own, deferrals := some 3, strikes := 1, headTime := none } } }

theorem witness_RelayWaitEnd_preempts :
    (relayingUnder .backoff).PoolSound ∧ (relayingUnder .body).PoolSound ∧ (relaying .urgent 0).PoolSound ∧
      (relayingUnder .backoff).relayWaitOf 0 = some (wait .urgent) ∧ (relayingUnder .backoff).placeFree .urgent = true ∧
      (relayingUnder .backoff).settled = true :=
  ⟨poolSound_of (by decide +kernel) (by decide +kernel), poolSound_of (by decide +kernel) (by decide +kernel),
    poolSound_of (by decide +kernel) (by decide +kernel), by decide, by decide, by decide⟩

/-- The clauses of the service of waiters: a relay copy with a place and with none, an own flood, the pending PROFILE and the
pending HEALTH, each with its claim allowed and refused. -/
theorem witness_BusyAssessment_service :
    let waits (s : State) : State :=
      { s with fu := { s.fu with waiters := [.relay 0], pendingProfile := some .service, pendingHealth := true } }
    (waits (relaying .urgent 0)).placeFree .urgent = true ∧ (waits (relaying .urgent 4)).placeFree .urgent = false ∧
      (waits (relaying .urgent 0)).relayWaitOf 0 = some (wait .urgent) ∧ (waits (relaying .urgent 0)).PoolSound ∧
      (∀ c ∈ [FrameClass.urgent, .routine], (waits (relaying .urgent 0)).CanOriginate c ∧
        ¬ { waits (relaying .urgent 0) with pool := fullPool }.CanOriginate c) :=
  ⟨by decide, by decide, by decide, poolSound_of (by decide +kernel) (by decide +kernel), fun c _ =>
    ⟨⟨by cases c <;> decide, by cases c <;> decide⟩, fun h => absurd h.1 (by cases c <;> decide)⟩⟩

/-- A PANEL station whose profile refresh falls at 2 s. -/
def refreshing : State := { station .panel with fu := { (station .panel).fu with profileRefresh := some 2000000 } }

theorem witness_ProfileRefresh :
    refreshing.fu.profileRefresh = some 2000000 ∧ 2000000 ≤ refreshing.now + 1000000 ∧
      refreshing.cfg.serviceApplies = true ∧ refreshing.det.state ≠ .verify ∧ refreshing.det.profile = .normal ∧
      { refreshing with det := { Detection.initial with state := .verify, profile := .service } }.det.profile = .service ∧
      { refreshing with det := { Detection.initial with state := .verify } }.det.state = .verify ∧
      refreshing.CanOriginate .routine ∧ ¬ { refreshing with pool := fullPool }.CanOriginate .routine :=
  ⟨rfl, by decide, rfl, by decide, rfl, rfl, rfl, ⟨by decide, by decide⟩, fun h => absurd h.1 (by decide)⟩

/-! ### Schedule -/

/-- A station on the alert list at entry 1. -/
def alertStation (role : Role) : State :=
  { station role with su := { (station role).su with list := .alert, hold := .runOut } }

theorem witness_EntryBoundary :
    ((station .multi).isDetector = true ∧ (station .multi).su.nextBoundary = some 1500000 ∧
      1500000 ≤ (station .multi).now + 500000 ∧ (station .multi).settled = true ∧ (station .multi).su.list = .quiet ∧
      { station .multi with now := 1500000 }.alertCause = false) ∧
    { inState .watch with now := 1500000 }.alertCause = true ∧
    ((alertStation .heat).isDetector = true ∧ (alertStation .heat).su.list = .alert ∧
      (alertStation .heat).su.hold = .runOut ∧ (alertStation .heat).su.commitment = none ∧
      (alertStation .heat).alertCause = false) ∧
    ((alertStation .relay).isDetector = false ∧ (alertStation .relay).su.list = .alert ∧
      (alertStation .relay).su.nextBoundary = some 1500000 ∧ (alertStation .relay).settled = true ∧
      (alertStation .relay).mu.scan = none ∧ (alertStation .relay).sc.learning ≠ .learning) := by decide

theorem witness_ScheduleTimers :
    let s : State := { station .multi with su := { (station .multi).su with
      startWindow := some 1200000, hold := .running 1200000, commitment := some 1200000, power := .doze } }
    1200000 ≤ s.now + 200000 ∧ s.su.startWindow = some 1200000 ∧ s.su.hold = .running 1200000 ∧
      s.su.commitment = some 1200000 ∧ s.su.power = .doze ∧ s.su.nextBoundary = some 1500000 ∧
      s.now + 499000 + 500 * 2 ^ s.cfg.settleCode = 1500000 := by decide

theorem witness_SettleEnd :
    let s := ticking (some 90) .run (some 1001000)
    s.su.settleEnd = some 1001000 ∧ 1001000 ≤ s.now + 1000 ∧ s.su.held = [] ∧
      { s with su := { s.su with held := [.heatPush] } }.su.held = [.heatPush] ∧ s.ev.candidate = some 90 := by decide

/-! ### Supervision -/

/-- A station with the fault active, unreported, and the supervision timers at 2 s. -/
def faulty : State :=
  { station .multi with
    faults := { records := [.raised .radioStall 0x0205 900], storageLoss := false, retry := some 2000000 }
    sv := { Sv.initial with history := [900], stall := some 2000000, failed := some 2000000, health := some 2000000 } }

theorem witness_SupervisionTimers :
    faulty.su.power = .run ∧ 2000000 ≤ faulty.now + 1000000 ∧ faulty.TablesKeyed ∧ faulty.sv.stall = some 2000000 ∧
      faulty.sv.failed = some 2000000 ∧ faulty.faults.retry = some 2000000 ∧ faulty.ownInFlight kindFault = false ∧
      (∃ r ∈ faulty.faults.records, r.reported = false ∧ r.composed = false) ∧ faulty.CanOriginate .routine ∧
      ¬ { faulty with pool := fullPool }.CanOriginate .routine :=
  ⟨rfl, by decide, ⟨by decide, by decide, by decide, by decide, by decide⟩, rfl, rfl, rfl, by decide, by decide,
    ⟨by decide, by decide⟩, fun h => absurd h.1 (by decide)⟩

/-- The look's clauses: five unreported records in their age order, four of them chosen, and a retry timer that stands or
runs. -/
theorem witness_SupervisionTimers_look :
    let record (k : Nat) : FaultRecord := .raised .neighbourLost (BitVec.ofNat 16 (0x301 + k)) (900 + k / 2)
    let s : State := { station .multi with faults := { FaultLog.initial with records := (List.range 5).map record } }
    s.TablesKeyed ∧ s.ownInFlight kindFault = false ∧ s.CanOriginate .routine ∧ s.faults.retry = none ∧
      faulty.faults.retry ≠ none ∧ (∀ r ∈ s.faults.records, r.reported = false ∧ r.composed = false) ∧
      s.faults.candidates = (List.range 4).map record ∧ (record 0).raisedAt = (record 1).raisedAt :=
  ⟨⟨by decide, by decide, by decide, by decide, by decide⟩, by decide, ⟨by decide, by decide⟩, rfl, by decide, by decide,
    by decide, rfl⟩

/-- Eight records of different subjects, all as `active` says. -/
def eightRecords (active : Bool) : FaultLog :=
  { FaultLog.initial with records := (List.range 8).map (fun k =>
      { FaultRecord.raised .neighbourLost (BitVec.ofNat 16 (0x301 + k)) (900 + k) with active := active }) }

theorem witness_RaiseAndClear :
    (∀ a ∈ [true, false], ((eightRecords a).records.map (fun r => (r.code, r.subject))).Nodup ∧
      (∃ r ∈ (eightRecords a).records, r.code = .neighbourLost ∧ r.subject = 0x301 ∧ r.active = a) ∧
      (∀ r ∈ (eightRecords a).records, ¬ (r.code = .chamber ∧ r.subject = 0x0205)) ∧
      8 ≤ (eightRecords a).records.length) ∧
    (∀ r ∈ (eightRecords true).records, r.active = true) ∧ (∃ r ∈ (eightRecords false).records, r.active = false) ∧
    FaultLog.initial.records.length < 8 := by decide

theorem witness_HealthTimer :
    faulty.sv.health = some 2000000 ∧ 2000000 ≤ faulty.now + 1000000 ∧ faulty.settled = true ∧
      faulty.CanOriginate .routine ∧ ¬ { faulty with pool := fullPool }.CanOriginate .routine :=
  ⟨rfl, by decide, by decide, ⟨by decide, by decide⟩, fun h => absurd h.1 (by decide)⟩

/-! ### Lines -/

/-- A station whose test line stands at `raw` over the debounced level, 50 ms old at 1.05 s. -/
def pressing (raw level : Bool) : State :=
  { station .heat with lu := { (station .heat).lu with
      test := { raw := raw, level := level, debounce := some 1050000 }, press := some 3000000 } }

theorem witness_TestLine :
    (station .relay).sc.inReset = false ∧
    (∀ raw ∈ [true, false], ∀ level ∈ [true, false], (pressing raw level).lu.test.debounce = some 1050000 ∧
      1050000 ≤ (pressing raw level).now + 50000 ∧ (pressing raw level).sc.learning = .ended ∧
      (pressing raw level).sc.inert = false ∧ (pressing raw level).lu.test.raw = raw ∧
      (pressing raw level).lu.test.level = level ∧ (pressing raw level).su.power = .run) ∧
    ((pressing true true).lu.press = some 3000000 ∧ (pressing true true).now + 50000 < 3000000 ∧
      3000000 ≤ (pressing true true).now + 2000000 ∧ (pressing true true).sv.selfTest = .idle ∧
      (rereading 1).sv.selfTest ≠ .idle) ∧ (pressing false true).CanOriginate .routine :=
  ⟨by decide, by decide, by decide, ⟨by decide, by decide⟩⟩

/-- The edges of the panel's lines: a PANEL station, and another role with its record applied. -/
theorem witness_TestLine_edges :
    (station .panel).sc.inReset = false ∧ (station .panel).isPanel = true ∧ (station .heat).sc.inReset = false ∧
      (station .heat).isPanel = false ∧ (station .heat).sc.config ≠ none := by decide

/-! ### Held work -/

/-- A station, its oscillator as given, on which every timer, relay wait and guard ends at 1.5 s. -/
def allDue (st : DetState) (power : Power) (settle : Timer) : State :=
  let at_ : Timer := some 1500000
  { station .multi with
    ev := { learned with heatTick := at_ }
    det := { Detection.initial with state := st, refresh := at_, serviceLimit := at_, observation := at_ }
    su := { (station .multi).su with power := power, settleEnd := settle }
    nt := [{ neighbour 0x142 with hold := at_, supervision := some 1500 }]
    tu := { Tu.initial with phase := .backoff, backoff := at_, watch := .running 1500000 }
    fu := { Fu.initial with relayWaits := [{ wait .urgent with endsAt := 1500000 }] }
    sv := { Sv.initial with health := at_, stall := at_, failed := at_ }
    faults := { FaultLog.initial with retry := at_ }
    lu := { (station .multi).lu with press := at_, test := { raw := true, level := true, debounce := none } }
    guards := { scan := at_, header := at_, frame := at_, assessment := at_, body := at_, calibration := at_,
                configRead := at_, restartWrite := at_ } }

/-- The clauses of held work, with the oscillator settled, in DOZE and during a settle. -/
theorem witness_HeatTickAndHeldWork_due :
    (∀ st ∈ [DetState.quiet, .fire], ∀ x ∈ [(Power.run, none), (.doze, none), (.run, some 1501000)],
      let s := allDue st x.1 x.2
      let e : Timer := some 1500000
      1500000 ≤ s.now + 500000 ∧ s.su.power = x.1 ∧ s.su.settleEnd = x.2 ∧ s.ev.heatTick = e ∧ s.su.nextBoundary = e ∧
        s.tu.phase = .backoff ∧ s.tu.backoff = e ∧ s.det.refresh = e ∧ s.det.serviceLimit = e ∧ s.det.observation = e ∧
        s.det.state = st ∧ s.sv.health = e ∧ s.sv.stall = e ∧ s.sv.failed = e ∧ s.faults.retry = e ∧
        s.tu.watch = .running 1500000 ∧ s.lu.press = e ∧ s.lu.test.level = true ∧ (s.nt.map (·.addr)).Nodup ∧
        (∀ n ∈ s.nt, n.hold = e ∧ n.supervision = some 1500) ∧
        (∀ w ∈ s.fu.relayWaits, s.relayWaitOf w.buf = some w ∧ w.running = true ∧ w.endsAt = 1500000) ∧
        ∀ g ∈ [GuardName.scan, .header, .frame, .assessment, .body, .calibration, .configRead, .restartWrite],
          s.guards.get g = e) ∧
    ∀ power ∈ [Power.run, .doze],
      let s : State := { pressing false true with su := { (pressing false true).su with power := power } }
      s.lu.test = { raw := false, level := true, debounce := some 1050000 } ∧ s.lu.press = some 3000000 ∧
        s.now + 50000 < 3000000 ∧ s.sc.learning = .ended ∧ s.sc.inert = false ∧ s.su.power = power := by decide +kernel

/-- A state whose LED period begins at 2 s. -/
def lit (s : State) : State := { s with lu := { s.lu with ledNext := some 2000000, statePattern := some 2000000 } }

theorem witness_LedPeriods :
    (lit (station .multi)).lu.ledNext = some 2000000 ∧ (lit (station .multi)).lu.statePattern = some 2000000 ∧
      2000000 ≤ (lit (station .multi)).now + 1000000 ∧ inertStation.sc.inert = true ∧
      (station .multi).sc.inert = false ∧ panelStation.fu.fires ≠ [] ∧ (station .multi).fu.fires = [] ∧
      (station .multi).lu.statePattern = none ∧ (inState .verify).det.state = .verify ∧
      (∃ r ∈ faulty.faults.records, r.active = true) ∧ (∀ r ∈ (station .multi).faults.records, r.active = false) ∧
      (station .multi).faults.storageLoss = false ∧ (station .multi).now + 1000000 < 3000000 := by decide

/-- A PANEL station sending `n` records, with `lost` dropped. -/
def reporting (n lost : Nat) : State :=
  { station .panel with lu := { (station .panel).lu with
      records := List.replicate n { type := .profile, origin := 0x0205, zone := 3, code := 1, detail := 0 }
      lost := lost
      sendEnd := some 1006250 } }

theorem witness_StatusLine :
    (reporting 16 2).lu.sendEnd = some 1006250 ∧ 1006250 ≤ (reporting 16 2).now + 6250 ∧
      (∃ r rest, (reporting 16 2).lu.records = r :: rest) ∧ (reporting 16 2).isPanel = true ∧
      16 ≤ (reporting 16 2).lu.records.length ∧ (reporting 15 0).lu.records.length < 16 ∧
      (station .relay).isPanel = false ∧ (reporting 16 2).lu.sendEnd ≠ some (reporting 16 2).now ∧
      { reporting 16 2 with now := 1006250 }.lu.sendEnd = some { reporting 16 2 with now := 1006250 }.now :=
  ⟨rfl, by decide, ⟨_, _, rfl⟩, by decide, by decide, by decide, by decide, by decide, rfl⟩

/-! ### Invariants -/

/-- The station with a heat tick waiting. -/
def waitingStation : State := { ticking (some 90) .run none with pending := [.heatTick 500000] }

theorem witness_LinesFollowKept : waitingStation.LinesFollow ∧ ∃ t, step waitingStation = .next t :=
  ⟨⟨by decide, by decide, by decide⟩, _, rfl⟩

theorem witness_RangesKept : waitingStation.InRange ∧ waitingStation.PoolSound ∧ ∃ t, step waitingStation = .next t := by
  refine ⟨⟨⟨?_, ?_, ?_, ?_, ?_, ?_, ?_, ?_, ?_, ?_, ?_, ?_, ?_, ?_, ?_, ?_⟩, ⟨?_, ?_, ?_⟩, ?_, ?_, ?_, ?_, ?_, ?_, ?_, ?_, ?_, ?_,
    ?_, ?_⟩, poolSound_of (by decide +kernel) (by decide +kernel), _, rfl⟩
  all_goals first
    | decide
    | (intro x h; cases h; first | done | (unfold ThetaInRange; decide))
    | (unfold ValidityRun.InRange; decide)
    | (unfold Sv.InRange; decide)
    | (unfold Lu.InRange; decide)
    | (unfold CountersInRange; decide)

theorem witness_TablesKeyedKept : waitingStation.TablesKeyed ∧ ∃ t, step waitingStation = .next t :=
  ⟨keyed_of_empty _ (by decide), _, rfl⟩

/-! ## One step of a command -/

/-- R185: work is abandoned, station time goes on. -/
theorem test_start_up_reset : (after (exec (.startUpReset 500) panelStation)).now = 1000500 ∧
    (after (exec (.startUpReset 500) panelStation)).fu.fires = [] := by decide

/-- 11.8 at 0 ms. -/
theorem test_reset_line_release : (after (exec (.resetLineRelease 0) State.reset)).guards.configRead = some 100000 := by decide

/-- 11.8 at 9 ms. -/
theorem test_read_mismatch :
    let t := after (exec (.configReadAttemptEnd 9000 1 (recordBytes.set 40 0)) (reading 1))
    t.sc.read = some { number := 2, serial := 2, purpose := .startUp } ∧ t.guards.configRead = some 109000 := by decide +kernel

/-- R187: the late end of an attempt 1 of another read. -/
theorem test_read_late :
    (after (exec (.configReadAttemptEnd 9000 1 recordBytes) (rereading 1))).sc.read = (rereading 1).sc.read := by decide

/-- R189: the count and the checksum the write sends. -/
theorem test_read_match :
    let t := after (exec (.configReadAttemptEnd 9000 1 recordBytes) (reading 1))
    t.fu.run = 17 ∧ t.sc.write = some [17, 0xB2, 0x07] ∧ t.guards.restartWrite = some 59000 := by decide +kernel

/-- R187: the third failure. -/
theorem test_read_guard : (after (exec (.configReadGuardExpiry 100000) (reading 3))).sc.inert = true := by decide

/-- R167, R190: the alert list at the write's end, and learning. -/
theorem test_write_end :
    let t := after (exec (.restartCountWriteEnd 6000) (writing .multi))
    t.su.list = .alert ∧ t.su.nextBoundary = some 506000 ∧ t.sc.learnLimit = some 60006000 ∧ t.radio.rx = .listening := by decide

/-- R189: the guard's expiry. -/
theorem test_write_guard :
    ((after (exec (.restartCountWriteGuardExpiry 50000) (writing .panel))).faults.records.map (·.code)) = [.configWrite] := by
  decide

/-- R190: no further learning, with the unit's own learning going on. -/
theorem test_learning_limit :
    let t := after (exec (.learningLimitExpiry 59000000) learningStation)
    t.sc.learning = .ended ∧ t.ev.learning = true ∧ t.sv.selfTest = .scanning := by decide

/-- R7: a completion latches its scan. -/
theorem test_scan_completion :
    let t := after (exec (.scanCompletion 1000 7 40 200 150 290 700) (scanning .multi))
    t.mu.latched.map (·.seq) = some 7 ∧ t.guards.scan = none ∧ t.ev.theta = some 90 ∧ t.det.state = .quiet := by decide

/-- R13: a completion of an abandoned scan changes nothing. -/
theorem test_scan_completion_late :
    (after (exec (.scanCompletion 1000 6 40 200 150 290 700) (scanning .multi))).mu.latched = none := by decide

/-- 1.9 at 11505. -/
theorem test_scan_guard :
    let t := after (exec (.scanGuardExpiry 5000) (scanning .heat))
    t.sv.completedScans = 0 ∧ t.faults.records.map (·.code) = [.scanStall] ∧ t.counter .guardExpired = 1 := by decide

/-- 1.9: the third invalid set raises and the third valid one clears. -/
theorem test_validity_run :
    let run := [.invalid, .invalid, .invalid, .valid, .valid, .valid].foldl
      (fun (r : List RunRequest × ValidityRun) st => (r.1 ++ [(r.2.take st).1], (r.2.take st).2))
      ([], { invalid := 0, valid := 3, raised := false })
    run = ([.nothing, .nothing, .raise, .nothing, .nothing, .clear], { invalid := 0, valid := 3, raised := false }) := by decide

/-- R32: the ninth push drops the oldest. -/
theorem test_heat_tick :
    let s := { ticking (some 90) .run none with ev := { (ticking (some 90) .run none).ev with ring := [1, 2, 3, 4, 5, 6, 7, 8] } }
    (after (exec (.heatTick 500000) s)).ev.ring = [2, 3, 4, 5, 6, 7, 8, 90] := by decide

/-- 9.7 at 1200: a heat tick in DOZE settles first (settle code 1: 1 ms). -/
theorem test_heat_tick_doze :
    let t := after (exec (.heatTick 500000) (ticking (some 90) .doze none))
    t.su.settleEnd = some 1501000 ∧ t.su.held = [.heatPush] ∧ t.ev.ring = [] := by decide

/-- R52: the refresh timer's next period. -/
theorem test_refresh : (after (exec (.refreshTimerExpiry 30500000) (inState .fire))).det.refresh = some 61000000 := by decide

/-- R57. -/
theorem test_service_limit :
    let s := { inState .watch with det := { (inState .watch).det with profile := .service, serviceLimit := some 2000000 } }
    (after (exec (.serviceLimitExpiry 1000000) s)).det.profile = .normal := by decide

/-- R59: 4 s outside QUIET. -/
theorem test_observation_timer :
    let t := after (exec (.observationTimerExpiry 4000000) (inState .watch))
    t.det.observation = some 9000000 ∧ t.ownInFlight kindObservation = true := by decide

/-- R70: the last hold's end lets a routine frame be selected. -/
theorem test_hold_timer :
    (after (exec (.holdTimerExpiry 1000000 0x142) (queuedStation .routine [holding 0x142 2000000]))).tu.phase = .backoff := by
  decide

/-- 4.9 at 970: a silent LIVE neighbour is LOST. -/
theorem test_supervision :
    let t := after (exec (.supervisionExpiry 270000000 0x142) (among [neighbour 0x142]))
    t.nt.map (·.status) = [.lost] ∧ t.faults.records.map (·.subject) = [0x142] := by decide

/-- 6.8 at 4 ms and 504 ms. -/
theorem test_sample_end :
    (after (exec (.channelSampleEnd 4000 (-110)) (sampling false))).radio.rx = .off ∧
    (after (exec (.channelSampleEnd 4000 (-110)) (sampling false))).su.power = .doze ∧
    (after (exec (.channelSampleEnd 4000 (-99)) (sampling false))).radio.waitEnd = some 1544000 := by decide

/-- R104. -/
theorem test_preamble_detection :
    (after (exec (.preambleDetection 0) { station .relay with radio := { Radio.initial with rx := .listening } })).radio.owner
      = .receiveUnit := by decide

/-- 6.8 at 650.32 ms: the guards; a level above the range is taken as its bound. -/
theorem test_delimiter :
    let t := after (exec (.delimiterFound 146320 3) awaiting)
    t.guards.header = some 1148320 ∧ t.guards.frame = some 1158320 ∧ t.radio.reception.map (·.level) = some 0 := by decide

/-- R104: FALSE-WAKE. -/
theorem test_wait_limit : (after (exec (.delimiterWaitLimit 540000) awaiting)).counter .falseWake = 1 ∧
    (after (exec (.levelLost 10) awaiting)).counter .falseWake = 1 := by decide

/-- 6.8 at 650.80 ms: an urgent claim. -/
theorem test_kind_byte :
    let t := after (exec (.kindByteArrival 480 0x21 0x5C 2) { taking [] none none with pool := Pool.initial })
    t.pool.freeCount = 7 ∧ (t.buf 0).cls = some .urgent := by decide

/-- 6.9 step 8: a routine claim at two FREE buffers. -/
theorem test_kind_byte_refused :
    let pool : Pool := { fullPool with bufs := (fullPool.bufs.set 3 Buffer.empty).set 5 Buffer.empty }
    let t := after (exec (.kindByteArrival 480 0x21 0x5C 6) { taking [] none none with pool := pool })
    t.pool.freeCount = 2 ∧ t.counter .rxNobuf = 1 := by decide

/-- R105: a body length of 49 ends the frame. -/
theorem test_seventh_byte :
    let t := after (exec (.seventhHeaderByte 640 0 0x22 0x04 49) (taking [0x21, 0x5C, 2] (some 0) none))
    t.counter .rxFormat = 1 ∧ t.radio.reception = none ∧ t.pool.freeCount = 8 := by decide

/-- 8.12: a FIRE of the current epoch lists its origin and sounds; at its hop limit it is not relayed. -/
theorem test_frame_end :
    let f := frameOf 2 0x0A 0x0422 [0x10, 0x03, 17, 203, 0xCC, 0, 0, 7, 1, 0xDA, 0x02]
    let t := after (exec (.frameEnd 2080 (f.drop 7)) (taking [0x21, 0x5C, 2] (some 0) (some 11)))
    t.fu.fires.map (·.origin) = [0x0310] ∧ t.lu.sounder = true ∧ t.counter .rxGood = 1 ∧ t.pool.freeCount = 8 := by
  decide +kernel

/-- 5.11: a carrier lost one byte early. -/
theorem test_frame_cut_off :
    let t := after (exec (.frameEnd 1920 (((fireFrame 0).drop 7).take 12)) (taking [0x21, 0x5C, 2] (some 0) (some 11)))
    t.counter .rxFormat = 1 ∧ t.fu.fires = [] ∧ t.pool.freeCount = 8 := by decide +kernel

/-- R108. -/
theorem test_carrier_lost : (after (exec (.carrierLostBeforeKind 100) (taking [] none none))).counter .rxFormat = 1 := by decide

/-- R113: a guard of the radio side. -/
theorem test_radio_guards :
    [Instr.headerGuardExpiry 2000, .frameGuardExpiry 2000, .assessmentGuardExpiry 2000, .bodyGuardExpiry 2000,
      .calibrationGuardExpiry 2000].all (fun c =>
        decide ((after (exec c guarded)).guards.calibration = some 1005000) &&
        decide ((after (exec c guarded)).tu.urgent.map (·.strikes) = [if c = .bodyGuardExpiry 2000 then 1 else 0])) = true := by
  decide

/-- 10.10: the third restart within 600 s. -/
theorem test_history :
    historyAfter [1000000, 1400000] 1400003 = [1000000, 1400000, 1400003] ∧
      historyFails [1000000, 1400000, 1400003] 1400003 = true ∧ historyFails [800003, 1400000, 1400003] 1400003 = false := by
  decide

/-- R115, R102: the calibration in progress ends; the late end of one that was replaced changes nothing. -/
theorem test_calibration : (after (exec (.calibrationCompletion 1000 999000) heldOffStation)).radio.owner = .none ∧
    (after (exec (.calibrationCompletion 1000 996000) heldOffStation)).radio.owner = .heldOff := by decide

/-- 7.10 at 70: a hold met at the backoff's end. -/
theorem test_backoff_end_held :
    let t := after (exec (.backoffEnd 10000) (backingOff .routine [holding 0x142 2000000] Radio.initial))
    t.tu.phase = .idle ∧ t.tu.routine.length = 1 := by decide

/-- 7.10 at 2190: granted. -/
theorem test_backoff_end :
    (after (exec (.backoffEnd 10000) (backingOff .urgent [] Radio.initial))).guards.assessment = some 1012000 := by decide

/-- 7.10 at 2204: clear, the long preamble. -/
theorem test_assessment_end :
    (after (exec (.assessmentEnd 1000 (-100)) (onRadio .urgent .assess []))).tu.preambleEnd = some 1521000 := by decide

/-- 7.10 at 2724: the body guard of a FIRE, 3.52 ms and 2 ms. -/
theorem test_preamble_end :
    let t := after (exec (.preambleEnd 520000) (onRadio .urgent .preamble []))
    t.guards.body = some 1525520 ∧ Frame.sender (t.buf 0).frame = 0x0205 := by decide +kernel

/-- 7.10 at 2727.52. -/
theorem test_body_end :
    let t := after (exec (.bodyEnd 3520) (onRadio .urgent .body []))
    t.counter .txSent = 1 ∧ t.pool.freeCount = 8 ∧ t.tu.phase = .idle := by decide

/-- 7.11 at 60040. -/
theorem test_watch :
    (after (exec (.channelBlockedWatchExpiry 10000000) (watched .run))).faults.records.map (·.code) = [.channelBlocked] := by
  decide

/-- R150: an offer at the wait's end. -/
theorem test_relay_wait :
    let t := after (exec (.relayWaitEnd 8000 0) (relaying .urgent 0))
    t.tu.current.map (·.mark) = some .relay ∧ t.fu.relayWaits = [] := by decide

/-- R126: the urgent copy sends the routine frame back to its queue with its counts. -/
theorem test_relay_wait_preempts :
    let t := after (exec (.relayWaitEnd 8000 0) (relayingUnder .backoff))
    t.tu.current.map (·.buf) = some 0 ∧ t.tu.phase = .backoff ∧ t.counter .txPreempted = 1 ∧ (t.buf 1).state = .queued ∧
      t.tu.routine = [{ buf := 1, mark := .own, deferrals := some 3, strikes := 1, headTime := none }] := by decide +kernel

/-- R154: the next refresh. -/
theorem test_profile_refresh :
    (after (exec (.profileRefreshTimerExpiry 1000000) refreshing)).fu.profileRefresh = some 1802000000 := by decide

/-- 9.7 at 500: the next quiet entry samples. -/
theorem test_boundary :
    let t := after (exec (.entryBoundary 500000) (station .multi))
    t.su.position = 2 ∧ t.radio.rx = .sampling ∧ t.su.nextBoundary = some 2000000 ∧ t.mu.scan = none := by decide

/-- 9.8 at 163000: the switch to the quiet list. -/
theorem test_boundary_leaves_alert :
    let t := after (exec (.entryBoundary 500000) (alertStation .multi))
    t.su.list = .quiet ∧ t.su.position = 1 ∧ t.mu.scan.map (·.seq) = some 1 := by decide

/-- 9.8: the three timers of the schedule. -/
theorem test_schedule_timers :
    let s : State := { station .multi with su := { (station .multi).su with
      startWindow := some 1200000, hold := .running 1200000, commitment := some 1200000 } }
    (after (exec (.startUpWindowExpiry 200000) s)).su.startWindow = none ∧
      (after (exec (.alertHoldExpiry 200000) s)).su.hold = .runOut ∧
      (after (exec (.alertCommitmentExpiry 200000) s)).su.commitment = none := by decide

/-- 9.7 at 498: the scheduled leave. -/
theorem test_scheduled_leave :
    (after (exec (.scheduledLeave 499000) (ticking none .doze none))).su.settleEnd = some 1500000 := by decide

/-- 9.7 at 1202: the push at the settle end. -/
theorem test_settle_end :
    let s := ticking (some 90) .run (some 1001000)
    (after (exec (.settleEnd 1000) { s with su := { s.su with held := [.heatPush] } })).ev.ring = [90] := by decide

/-- 10.10 at 1060 and 2000.003. -/
theorem test_stall_and_failed :
    (after (exec (.stallTimerExpiry 1000000) faulty)).faults.records.map (·.active) = [false] ∧
      (after (exec (.failedTimerExpiry 1000000) faulty)).sv.history = [] := by decide

/-- R176. -/
theorem test_report_retry :
    (after (exec (.reportRetryTimerExpiry 1000000) faulty)).faults.records.map (·.composed) = [true] := by decide +kernel

/-- R183. -/
theorem test_health :
    (after (exec (.healthTimerExpiry 1000000) faulty)).sv.health = some 21602000000 := by decide +kernel

/-- 10.9 at 302.3: the oldest CLEARED record gives way. -/
theorem test_raise_full :
    let f := (eightRecords true).clear .neighbourLost 0x303
    (f.2.raise .chamber 0x0205 2000).2.records.map (·.subject) =
      [0x301, 0x302, 0x304, 0x305, 0x306, 0x307, 0x308, 0x0205] := by decide

/-- R192: an edge and a press. -/
theorem test_input_edge :
    (after (exec (.inputEdge 0 .test) (station .relay))).lu.test = { raw := true, level := false, debounce := some 1050000 } ∧
    (after (exec (.debounceEnd 50000 .test) (pressing true false))).lu.press = some 4050000 := by decide

/-- R192: the reset line is debounced on a PANEL station alone. -/
theorem test_input_edge_panel :
    (after (exec (.inputEdge 0 .reset) (station .panel))).lu.resetLine =
        { raw := true, level := false, debounce := some 1050000 } ∧
      (after (exec (.inputEdge 0 .reset) (station .heat))).lu.resetLine.debounce = none := by decide +kernel

/-- R152, R145: the silence key stops the sounder and leaves the fire relay. -/
theorem test_silence_key :
    let t := after (exec (.debounceEnd 50000 .silence) panelStation)
    t.lu.sounder = false ∧ t.lu.fireRelay = true ∧ t.ownInFlight kindSilence = true := by decide +kernel

/-- R192, R179. -/
theorem test_long_press :
    let t := after (exec (.longPress 2000000) (pressing true true))
    t.sv.selfTest = .scanning ∧ t.mu.scan.map (·.awaitedSelfTest) = some true := by decide

/-- R191: the patterns of a listed fire and of no fault. -/
theorem test_led :
    (after (exec (.ledPeriodStart 1000000) (lit panelStation))).lu.led = .steady ∧
      (after (exec (.ledPeriodStart 1000000) (lit (station .multi)))).lu.ledNext = some 32000000 ∧
      (after (exec (.statePatternEnd 1000000) (lit (station .multi)))).lu.statePattern = none := by decide

/-- R195: two records lost while sixteen stood are told in the place set free. -/
theorem test_status_record :
    let t := after (exec (.statusRecordSent 6250) (reporting 16 2))
    t.lu.records.length = 16 ∧ t.lu.records.getLast?.map (·.detail) = some 2 ∧ t.lu.sendEnd = some 1012500 := by decide

/-- R195: a record offered at the very end of the head's last stop bit takes the place; the lost count waits. -/
theorem test_status_record_together :
    let s : State := { reporting 16 2 with now := 1006250 }
    let t := s.panelRecord .silenced 0x0205 3 0 0
    s.lu.sendEnd = some s.now ∧ t.lu.records.length = 16 ∧ t.lu.records.getLast?.map (·.type) = some .silenced ∧
      t.lu.lost = 2 ∧ t.lu.sendEnd = some 1012500 := by decide

end Sys2Proof.Tests
end

section
/-! SUPPORT. The figures of an evaluation (R17 to R35): what each step of the arithmetic computes, case by case, and what it
leaves as it was; then the obligation on them. -/
namespace Sys2Proof.Machine

/-! ## Stages -/

/-- The three rows of R28's table that give the full weight, as one condition. -/
theorem smokeWeight_eq (is ratio ratioMin : Nat) :
    smokeWeight is ratio ratioMin =
      if is < 32 ∨ ratioMin = 0 ∨ ratioMin ≤ ratio then 16 else max 4 (16 * ratio / ratioMin) := by
  unfold smokeWeight
  by_cases hi : is < 32
  · rw [if_pos hi, if_pos (.inl hi)]
  · by_cases hz : ratioMin = 0
    · rw [if_neg hi, if_pos hz, if_pos (.inr (.inl hz))]
    · by_cases hr : ratioMin ≤ ratio
      · rw [if_neg hi, if_neg hz, if_pos hr, if_pos (.inr (.inr hr))]
      · rw [if_neg hi, if_neg hz, if_neg hr, if_neg (not_or.2 ⟨hi, not_or.2 ⟨hz, hr⟩⟩)]

@[simp] theorem smokeSignal_zero (gain : Nat) : smokeSignal 0 gain = 0 := by simp [smokeSignal]

@[simp] theorem smokeEvidence_zero (smokeFull : Nat) : smokeEvidence 0 smokeFull = 0 := by simp [smokeEvidence]

@[simp] theorem scatterRatio_zero (bs : Nat) : scatterRatio 0 bs = 63 := rfl

@[simp] theorem weightedSmoke_zero (w : Nat) : weightedSmoke 0 w = 0 := by simp [weightedSmoke]

theorem rateOfRise_of_eight (oldest newest : Int) {mid : List Int} (h : mid.length = 6) :
    rateOfRise (oldest :: (mid ++ [newest])) = newest - oldest := by
  have hlast : (oldest :: (mid ++ [newest])).getLast? = some newest := by
    rw [← List.cons_append, List.getLast?_concat]
  simp [rateOfRise, h, hlast]

theorem rateOfRise_of_length_ne {ring : List Int} (h : ring.length ≠ 8) : rateOfRise ring = 0 := if_neg h

/-! ## Step 1 -/

/-- Step 1 writes the three smoke figures alone. -/
theorem Evidence.smokeStep_writes (c : ConfigRecord) (part : Option SmokePart) (v : Evidence) :
    ∃ smoke ratio esw, v.smokeStep c part = { v with smoke := smoke, ratio := ratio, esw := esw } := by
  unfold Evidence.smokeStep
  split
  · split
    · exact ⟨_, _, _, rfl⟩
    · exact ⟨v.smoke, v.ratio, v.esw, rfl⟩
  · exact ⟨v.smoke, v.ratio, v.esw, rfl⟩

/-- A VALID smoke part after learning (R19, R20, R25 to R28). -/
theorem Evidence.smokeStep_of_valid (c : ConfigRecord) {p : SmokePart} {v : Evidence} (hp : p.status = .valid)
    (hl : v.learning = false) :
    let is := smokeExcess (darkCorrect p.i p.d) v.ibase
    let ratio := scatterRatio is (smokeExcess (darkCorrect p.b p.d) v.bbase)
    v.smokeStep c (some p) =
      { v with
        smoke := some (smokeSignal is c.gain)
        ratio := some ratio
        esw := weightedSmoke (smokeEvidence (smokeSignal is c.gain) c.smokeFull) (smokeWeight is ratio c.ratioMin) } := by
  simp [Evidence.smokeStep, hp, hl]

/-- A VALID smoke part during learning: both excesses are 0 (R20). -/
theorem Evidence.smokeStep_of_learning (c : ConfigRecord) {p : SmokePart} {v : Evidence} (hp : p.status = .valid)
    (hl : v.learning = true) : v.smokeStep c (some p) = { v with smoke := some 0, ratio := some 63, esw := 0 } := by
  simp [Evidence.smokeStep, hp, hl]

/-- An INVALID smoke part, or none, holds the smoke figures (R18, R29). -/
theorem Evidence.smokeStep_of_invalid (c : ConfigRecord) {part : Option SmokePart} (v : Evidence)
    (h : ∀ p ∈ part, p.status = .invalid) : v.smokeStep c part = v := by
  cases part with
  | none => rfl
  | some p => simp [Evidence.smokeStep, h p rfl]

/-! ## Step 2 -/

/-- Step 2 writes the heat figures alone, and the rate of rise for every part (R33). -/
theorem Evidence.heatStep_writes (c : ConfigRecord) (part : Option HeatPart) (v : Evidence) :
    ∃ theta candidate status eh, v.heatStep c part =
      { v with theta := theta, candidate := candidate, ror := rateOfRise v.ring, heatStatus := status, eh := eh } := by
  unfold Evidence.heatStep
  dsimp only
  split
  · split
    · exact ⟨_, _, _, _, rfl⟩
    · exact ⟨v.theta, v.candidate, _, _, rfl⟩
  · exact ⟨v.theta, v.candidate, v.heatStatus, _, rfl⟩

/-- A VALID heat part (R30, R33, R34). -/
theorem Evidence.heatStep_of_valid (c : ConfigRecord) {p : HeatPart} (v : Evidence) (hp : p.status = .valid) :
    v.heatStep c (some p) =
      { v with
        theta := some (temperature p.t)
        candidate := some (temperature p.t)
        ror := rateOfRise v.ring
        heatStatus := some .valid
        eh := heatEvidence (rateOfRise v.ring) (temperature p.t) c.rorFloor c.warmLevel } := by
  simp [Evidence.heatStep, hp]

/-- An INVALID heat part holds the temperature and gives no heat evidence (R34). -/
theorem Evidence.heatStep_of_invalid (c : ConfigRecord) {p : HeatPart} (v : Evidence) (hp : p.status = .invalid) :
    v.heatStep c (some p) = { v with ror := rateOfRise v.ring, heatStatus := some .invalid, eh := 0 } := by
  simp [Evidence.heatStep, hp]

/-! ## The figures of a set -/

/-- The smoke figures are those of step 1. -/
theorem Evidence.figures_smokeStep (c : ConfigRecord) (set : SampleSet) (v : Evidence) :
    (v.figures c set).smoke = (v.smokeStep c set.smoke).smoke ∧
      (v.figures c set).ratio = (v.smokeStep c set.smoke).ratio ∧
      (v.figures c set).esw = (v.smokeStep c set.smoke).esw := by
  obtain ⟨_, _, _, _, heat⟩ := Evidence.heatStep_writes c set.heat (v.smokeStep c set.smoke)
  simp [Evidence.figures, Evidence.combineStep, heat]

/-- A VALID heat part (R30, R33, R34): step 1 has left the ring that step 2 reads. -/
theorem Evidence.figures_of_valid_heat (c : ConfigRecord) {set : SampleSet} {p : HeatPart} (v : Evidence)
    (hset : set.heat = some p) (hp : p.status = .valid) :
    (v.figures c set).theta = some (temperature p.t) ∧ (v.figures c set).candidate = some (temperature p.t) ∧
      (v.figures c set).heatStatus = some .valid ∧
      (v.figures c set).eh = heatEvidence (rateOfRise v.ring) (temperature p.t) c.rorFloor c.warmLevel := by
  obtain ⟨_, _, _, smoke⟩ := Evidence.smokeStep_writes c set.smoke v
  rw [Evidence.figures, hset, Evidence.heatStep_of_valid c _ hp, smoke]
  exact ⟨rfl, rfl, rfl, rfl⟩

/-- An INVALID heat part holds the temperature and gives no heat evidence (R34). -/
theorem Evidence.figures_of_invalid_heat (c : ConfigRecord) {set : SampleSet} {p : HeatPart} (v : Evidence)
    (hset : set.heat = some p) (hp : p.status = .invalid) :
    (v.figures c set).theta = v.theta ∧ (v.figures c set).candidate = v.candidate ∧ (v.figures c set).eh = 0 ∧
      (v.figures c set).heatStatus = some .invalid := by
  obtain ⟨_, _, _, smoke⟩ := Evidence.smokeStep_writes c set.smoke v
  rw [Evidence.figures, hset, Evidence.heatStep_of_invalid c _ hp, smoke]
  exact ⟨rfl, rfl, rfl, rfl⟩

/-- The figures write nothing else, and their rate of rise is that of the ring as it stands, whatever the set (R33). -/
theorem Evidence.figures_writes (c : ConfigRecord) (set : SampleSet) (v : Evidence) :
    ∃ e esw eh smoke ratio theta status candidate, v.figures c set =
      { v with
        e := e, esw := esw, eh := eh, smoke := smoke, ratio := ratio, theta := theta, ror := rateOfRise v.ring
        heatStatus := status, candidate := candidate } := by
  obtain ⟨_, _, _, smoke⟩ := Evidence.smokeStep_writes c set.smoke v
  obtain ⟨_, _, _, _, heat⟩ := Evidence.heatStep_writes c set.heat (v.smokeStep c set.smoke)
  rw [Evidence.figures, heat, smoke]
  exact ⟨_, _, _, _, _, _, _, _, rfl⟩

theorem Evidence.figures_ror (c : ConfigRecord) (set : SampleSet) (v : Evidence) :
    (v.figures c set).ror = rateOfRise v.ring := by
  obtain ⟨_, _, _, _, _, _, _, _, h⟩ := Evidence.figures_writes c set v
  rw [h]

theorem Evidence.figures_e (c : ConfigRecord) (set : SampleSet) (v : Evidence) :
    (v.figures c set).e = min 1000 ((v.figures c set).esw + (v.figures c set).eh) := rfl

/-- The figures leave the baselines, the ring and the learning state (R23, R32, R21). -/
theorem Evidence.figures_keeps (c : ConfigRecord) (set : SampleSet) (v : Evidence) :
    (v.figures c set).ibase = v.ibase ∧ (v.figures c set).bbase = v.bbase ∧ (v.figures c set).ring = v.ring ∧
      (v.figures c set).learning = v.learning ∧ (v.figures c set).learnCount = v.learnCount := by
  obtain ⟨_, _, _, _, _, _, _, _, h⟩ := Evidence.figures_writes c set v
  rw [h]
  exact ⟨rfl, rfl, rfl, rfl, rfl⟩

/-- Settles O14, clause by clause: the smoke and the heat figures go by the case of their part, the rate of rise by the
ring alone. -/
theorem evidenceFigures : Obligations.EvidenceFigures := by
  unfold Obligations.EvidenceFigures
  refine ⟨?valid_smoke, ?valid_heat, fun c set v => ⟨Evidence.figures_e c set v, ?ring_full, ?ring_short, ?invalid_smoke,
    ?invalid_heat, ?learning, Evidence.figures_keeps c set v⟩⟩
  case valid_smoke =>
    intro c set p v hset hp hl
    have h := Evidence.figures_smokeStep c set v
    rw [hset, Evidence.smokeStep_of_valid c hp hl, smokeWeight_eq] at h
    exact h
  case valid_heat =>
    intro c set p v hset hp
    rw [Evidence.figures_ror]
    exact Evidence.figures_of_valid_heat c v hset hp
  case ring_full =>
    intro oldest newest mid hring hmid
    rw [Evidence.figures_ror, hring, rateOfRise_of_eight oldest newest hmid]
  case ring_short =>
    intro hlen
    rw [Evidence.figures_ror, rateOfRise_of_length_ne hlen]
  case invalid_smoke =>
    intro hinv
    have h := Evidence.figures_smokeStep c set v
    rwa [Evidence.smokeStep_of_invalid c v hinv] at h
  case invalid_heat =>
    rintro ⟨p, hset, hp⟩
    exact Evidence.figures_of_invalid_heat c v hset hp
  case learning =>
    rintro hl ⟨p, hset, hp⟩
    have h := Evidence.figures_smokeStep c set v
    rwa [hset, Evidence.smokeStep_of_learning c hp hl] at h

end Sys2Proof.Machine
end

section
/-! SUPPORT. What the transmit unit carries from one step to the next (R117 to R119, R126, R137): the own frames in its
routine queue and in progress, the FREE buffers and the routine places; and what becomes of an OBSERVATION asked for
(R60, R112, R138). -/
namespace Sys2Proof.Machine

/-! ## Buffers -/

theorem State.buf_congr {s t : State} (h : t.pool = s.pool) (b : Fin 8) : t.buf b = s.buf b :=
  congrArg (fun p => Pool.get p b) h

/-- Moving a buffer changes its state alone. -/
theorem State.frame_moveBuf (b c : Fin 8) (st : BufState) (s : State) :
    ((s.moveBuf b st).buf c).frame = (s.buf c).frame := by
  rw [State.buf_moveBuf]
  split
  · rename_i h; rw [h]
  · rfl

theorem State.cls_moveBuf (b c : Fin 8) (st : BufState) (s : State) :
    ((s.moveBuf b st).buf c).cls = (s.buf c).cls := by
  rw [State.buf_moveBuf]
  split
  · rename_i h; rw [h]
  · rfl

theorem State.state_moveBuf (b c : Fin 8) (st : BufState) (s : State) :
    ((s.moveBuf b st).buf c).state = if c = b then st else (s.buf c).state := by
  rw [State.buf_moveBuf]
  split <;> rfl

theorem Pool.free_of_firstFree {p : Pool} {b : Fin 8} (h : p.firstFree = some b) : (p.get b).state = .free := by
  simpa using List.find?_some h

theorem Pool.exists_firstFree {p : Pool} (h : 0 < p.freeCount) : ∃ b, p.firstFree = some b := by
  obtain ⟨b, hb, hf⟩ := List.countP_pos_iff.1 h
  exact Option.isSome_iff_exists.1 (List.find?_isSome.2 ⟨b, hb, hf⟩)

/-- A claim of either class needs a FREE buffer (R110). -/
theorem Pool.freeCount_pos_of_claimAllowed {p : Pool} {c : FrameClass} (h : p.claimAllowed c = true) :
    0 < p.freeCount := by
  cases c with
  | urgent => exact of_decide_eq_true h
  | routine => exact Nat.lt_of_lt_of_le (by omega) (of_decide_eq_true h : 3 ≤ p.freeCount)

theorem countP_or_le_add {α : Type} (p q : α → Bool) (l : List α) :
    l.countP (fun x => p x || q x) ≤ l.countP p + l.countP q := by
  induction l with
  | nil => simp
  | cons x l ih => grind

theorem count_finRange_eight (b : Fin 8) : (List.finRange 8).count b = 1 := by
  revert b
  decide

/-- One buffer fewer at most is FREE where every FREE buffer but one is FREE again. -/
theorem Pool.freeCount_le_succ {p q : Pool} (b : Fin 8)
    (h : ∀ c, c ≠ b → (p.get c).state = .free → (q.get c).state = .free) : p.freeCount ≤ q.freeCount + 1 := by
  calc p.freeCount
      ≤ (List.finRange 8).countP (fun c => decide ((q.get c).state = .free) || c == b) := by
        refine List.countP_mono_left (fun c _ hc => ?_)
        by_cases hcb : c = b
        · simp [hcb]
        · simp [h c hcb (of_decide_eq_true hc)]
    _ ≤ q.freeCount + (List.finRange 8).count b := countP_or_le_add _ _ _
    _ = q.freeCount + 1 := by rw [count_finRange_eight]

/-! ## Own frames are carried on -/

/-- The entries among which an own frame of a routine kind stands (R118): the frame in progress and the routine queue. -/
def Tu.routineEntries (tu : Tu) : List TxEntry := tu.current.toList ++ tu.routine

/-- From `s` to `t` every frame in a buffer that is not FREE is carried on in it, and every entry of the routine queue or in
progress stands there still, its counts and head time aside. -/
structure State.Carries (s t : State) : Prop where
  frames : ∀ b, (s.buf b).state ≠ .free → (t.buf b).state ≠ .free ∧ (t.buf b).frame = (s.buf b).frame
  entries : ∀ x ∈ s.tu.routineEntries, ∃ y ∈ t.tu.routineEntries, y.buf = x.buf ∧ y.mark = x.mark

/-- Neither the pool's buffers nor the entries changed. -/
theorem State.Carries.of_eq {s t : State} (hb : t.pool.bufs = s.pool.bufs)
    (he : t.tu.routineEntries = s.tu.routineEntries) : s.Carries t where
  frames := by
    have h : ∀ b, t.buf b = s.buf b := fun b => by rw [State.buf, State.buf, Pool.get, Pool.get, hb]
    exact fun b hf => by rw [h]; exact ⟨hf, rfl⟩
  entries := by
    rw [he]
    exact fun x hx => ⟨x, hx, rfl, rfl⟩

theorem State.Carries.refl (s : State) : s.Carries s := .of_eq rfl rfl

theorem State.Carries.trans {s t u : State} (h : s.Carries t) (k : t.Carries u) : s.Carries u where
  frames := fun b hf =>
    have ⟨hf1, he1⟩ := h.frames b hf
    have ⟨hf2, he2⟩ := k.frames b hf1
    ⟨hf2, he2.trans he1⟩
  entries := fun x hx =>
    have ⟨y, hy, hyb, hym⟩ := h.entries x hx
    have ⟨z, hz, hzb, hzm⟩ := k.entries y hy
    ⟨z, hz, hzb.trans hyb, hzm.trans hym⟩

theorem State.moveBuf_carries (b : Fin 8) {st : BufState} (hst : st ≠ .free) (s : State) :
    s.Carries (s.moveBuf b st) where
  frames := fun c hf => by
    rw [State.state_moveBuf, State.frame_moveBuf]
    refine ⟨?_, rfl⟩
    split
    · exact hst
    · exact hf
  entries := fun x hx => ⟨x, hx, rfl, rfl⟩

/-- A FREE buffer is filled: no frame that is carried on stood in it. -/
theorem State.setBuf_carries {b : Fin 8} {s : State} (hb : (s.buf b).state = .free) (x : Buffer) :
    s.Carries (s.setBuf b x) where
  frames := fun c hf => by
    have hc : c ≠ b := fun h => hf (h ▸ hb)
    rw [State.buf_setBuf, if_neg hc]
    exact ⟨hf, rfl⟩
  entries := fun x hx => ⟨x, hx, rfl, rfl⟩

/-- The transmit unit's own record replaced, its routine entries kept among the others. -/
theorem State.tu_carries {tu : Tu} {s : State} (h : ∀ x ∈ s.tu.routineEntries, x ∈ tu.routineEntries) :
    s.Carries { s with tu := tu } where
  frames := fun _ hf => ⟨hf, rfl⟩
  entries := fun x hx => ⟨x, h x hx, rfl, rfl⟩

/-- An entry taken from its queue is the frame in progress (R119). -/
theorem State.takeEntry_carries {e : TxEntry} {tu : Tu} {s : State} (hc : s.tu.current = none)
    (h : ∀ x ∈ s.tu.routine, x = e ∨ x ∈ tu.routine) : s.Carries (({ s with tu := tu } : State).takeEntry e) := by
  have taken : s.Carries { s with tu := { tu with current := some e } } := State.tu_carries (fun x hx => by
    simpa [Tu.routineEntries, hc] using h x (by simpa [Tu.routineEntries, hc] using hx))
  exact (taken.trans (State.moveBuf_carries e.buf (st := .sending) nofun _)).trans (.of_eq rfl rfl)

theorem State.select_carries (s : State) : s.Carries s.select := by
  unfold State.select
  split
  · rename_i hidle
    split
    · exact State.takeEntry_carries hidle.2.1 (fun x hx => .inr hx)
    · split
      · rename_i e rest hr
        split
        · exact .refl s
        · exact State.takeEntry_carries hidle.2.1 (fun x hx => List.mem_cons.1 (hr ▸ hx))
      · exact .refl s
  · exact .refl s

/-- Stopping the operation of the frame in progress leaves the frames and the queues (R126). -/
theorem State.stopOperation_keeps (s : State) : s.stopOperation.pool = s.pool ∧
    s.stopOperation.tu.current = s.tu.current ∧ s.stopOperation.tu.urgent = s.tu.urgent ∧
      s.stopOperation.tu.routine = s.tu.routine := by
  unfold State.stopOperation State.releaseTu
  split <;> exact ⟨rfl, rfl, rfl, rfl⟩

theorem State.currentIs_iff {c : FrameClass} {s : State} :
    s.currentIs c = true ↔ ∃ e, s.tu.current = some e ∧ (s.buf e.buf).cls = some c := by
  simp [State.currentIs, State.currentClass, Option.bind_eq_some_iff]

/-- A preempted frame goes to the head of the routine queue, with its counts (R126). -/
theorem State.preempt_cases (s : State) : s.preempt = s ∨
    ∃ e, s.tu.current = some e ∧ (s.buf e.buf).cls = some .routine ∧
      (∀ c, s.preempt.buf c = (s.moveBuf e.buf .queued).buf c) ∧ s.preempt.tu.current = none ∧
        s.preempt.tu.urgent = s.tu.urgent ∧ s.preempt.tu.routine = e :: s.tu.routine := by
  unfold State.preempt
  split
  · rename_i h
    obtain ⟨hpool, hcur, hurg, hrou⟩ := State.stopOperation_keeps s
    obtain ⟨e, he, hcls⟩ := State.currentIs_iff.1 h.1
    have hurgent : ¬ s.stopOperation.currentIs .urgent = true := by
      rw [State.currentIs_iff, hcur, he]
      rintro ⟨x, hx, hxc⟩
      cases hx
      rw [State.buf_congr hpool] at hxc
      exact absurd (hcls.symm.trans hxc) (by simp)
    refine .inr ⟨e, he, hcls, ?_⟩
    unfold State.returnCurrent
    rw [hcur, he]
    dsimp only
    rw [if_neg hurgent]
    refine ⟨fun c => ?_, rfl, hurg, congrArg (e :: ·) hrou⟩
    have hmove : (s.stopOperation.moveBuf e.buf .queued).pool = (s.moveBuf e.buf .queued).pool := by
      rw [State.moveBuf, State.setBuf, State.buf_congr hpool, hpool]
      rfl
    exact State.buf_congr hmove c
  · exact .inl rfl

theorem State.preempt_carries (s : State) : s.Carries s.preempt := by
  rcases State.preempt_cases s with h | ⟨e, he, _, hbuf, hcur, _, hrou⟩
  · rw [h]; exact .refl s
  · refine ⟨fun b hf => ?_, fun x hx => ⟨x, ?_, rfl, rfl⟩⟩
    · rw [hbuf]
      exact (State.moveBuf_carries e.buf (st := .queued) nofun s).frames b hf
    · rw [Tu.routineEntries, hcur, hrou]
      simpa [Tu.routineEntries, he] using hx

/-- Starting the watch gives the leading urgent frame its head time and changes no place (R124). -/
theorem State.startWatch_keeps (s : State) : s.startWatch.pool = s.pool ∧ s.startWatch.tu.routine = s.tu.routine ∧
    s.startWatch.tu.current.map (fun e => (e.buf, e.mark)) = s.tu.current.map (fun e => (e.buf, e.mark)) := by
  unfold State.startWatch
  split
  · split
    · exact ⟨rfl, rfl, by rw [Option.map_map]; rfl⟩
    · split <;> exact ⟨rfl, rfl, rfl⟩
  · exact ⟨rfl, rfl, rfl⟩

theorem State.startWatch_carries (s : State) : s.Carries s.startWatch := by
  obtain ⟨hpool, hrou, hcur⟩ := State.startWatch_keeps s
  refine ⟨fun b hf => ?_, fun x hx => ?_⟩
  · rw [State.buf_congr hpool]
    exact ⟨hf, rfl⟩
  · rcases List.mem_append.1 hx with hx | hx
    · have hx' : s.tu.current = some x := by simpa using hx
      rw [hx', Option.map_some] at hcur
      obtain ⟨y, hy, hxy⟩ := Option.map_eq_some_iff.1 hcur
      obtain ⟨hb, hm⟩ := Prod.mk.inj hxy
      exact ⟨y, List.mem_append_left _ (by simp [hy]), hb, hm⟩
    · exact ⟨x, List.mem_append_right _ (by rw [hrou]; exact hx), rfl, rfl⟩

/-- An urgent offer's entry at the tail of its queue, its buffer QUEUED (R118). -/
def State.queueUrgent (b : Fin 8) (mark : OriginMark) (s : State) : State :=
  { s.moveBuf b .queued with tu := { s.tu with
      urgent := s.tu.urgent ++ [{ buf := b, mark := mark, deferrals := none, strikes := 0, headTime := none }] } }

/-- A routine offer's entry at the tail of its queue, its buffer QUEUED (R118). -/
def State.queueRoutine (b : Fin 8) (mark : OriginMark) (s : State) : State :=
  { s.moveBuf b .queued with tu := { s.tu with
      routine := s.tu.routine ++ [{ buf := b, mark := mark, deferrals := some 0, strikes := 0, headTime := none }] } }

theorem State.accept_urgent (b : Fin 8) (mark : OriginMark) (s : State) :
    s.accept b mark .urgent = (s.queueUrgent b mark).preempt.select.startWatch := rfl

theorem State.accept_routine (b : Fin 8) (mark : OriginMark) (s : State) :
    s.accept b mark .routine = (s.queueRoutine b mark).select := rfl

theorem State.accept_carries (b : Fin 8) (mark : OriginMark) (c : FrameClass) (s : State) :
    s.Carries (s.accept b mark c) := by
  have queued : s.Carries (s.moveBuf b .queued) := State.moveBuf_carries b (st := .queued) nofun s
  cases c with
  | urgent =>
    have offered : s.Carries (s.queueUrgent b mark) := queued.trans (.of_eq rfl rfl)
    rw [State.accept_urgent]
    exact ((offered.trans (State.preempt_carries _)).trans (State.select_carries _)).trans (State.startWatch_carries _)
  | routine =>
    have offered : s.Carries (s.queueRoutine b mark) := queued.trans (State.tu_carries (fun x hx => by
      rw [Tu.routineEntries, ← List.append_assoc]
      exact List.mem_append_left _ hx))
    rw [State.accept_routine]
    exact offered.trans (State.select_carries _)

/-- An origination's records leave the pool and the transmit unit (R137). -/
theorem State.recordOwn_keeps (o : OwnFrame) (s : State) :
    (s.recordOwn o).pool = s.pool ∧ (s.recordOwn o).tu = s.tu := by
  unfold State.recordOwn
  split
  · exact ⟨rfl, rfl⟩
  · dsimp only
    split <;> exact ⟨rfl, rfl⟩

/-! ## Originations -/

/-- An origination takes a FREE buffer, and only where it can be made (R137, R138). -/
theorem State.originateBare_some {o : OwnFrame} {s t : State} (h : s.originateBare o = some t) :
    s.CanOriginate o.cls ∧ ∃ b, (s.buf b).state = .free ∧
      t = ((s.setBuf b { state := .queued, cls := some o.cls, frame := s.composeOwn o, level := none }).recordOwn
        o).accept b .own o.cls := by
  unfold State.originateBare at h
  split at h
  · rename_i hcan
    split at h
    · rename_i b hb
      exact ⟨Bool.and_eq_true_iff.1 hcan, b, Pool.free_of_firstFree hb, (Option.some.inj h).symm⟩
    · cases h
  · cases h

theorem State.originateBare_of_can {o : OwnFrame} {s : State} (h : s.CanOriginate o.cls) :
    ∃ t, s.originateBare o = some t := by
  obtain ⟨b, hb⟩ := Pool.exists_firstFree (Pool.freeCount_pos_of_claimAllowed h.1)
  rw [State.originateBare, if_pos (Bool.and_eq_true_iff.2 h), hb]
  exact ⟨_, rfl⟩

theorem State.originateBare_of_cannot {o : OwnFrame} {s : State} (h : ¬ s.CanOriginate o.cls) :
    s.originateBare o = none := by
  cases k : s.originateBare o with
  | none => rfl
  | some t => exact absurd (State.originateBare_some k).1 h

theorem State.originateBare_carries {o : OwnFrame} {s t : State} (h : s.originateBare o = some t) : s.Carries t := by
  obtain ⟨_, b, hb, rfl⟩ := State.originateBare_some h
  obtain ⟨hpool, htu⟩ := State.recordOwn_keeps o
    (s.setBuf b { state := .queued, cls := some o.cls, frame := s.composeOwn o, level := none })
  exact ((State.setBuf_carries hb _).trans (.of_eq (by rw [hpool]) (by rw [htu]))).trans (State.accept_carries _ _ _ _)

/-! ## An own frame in flight -/

/-- An own frame of kind `k` in the routine queue or in progress, in a buffer that is not FREE. -/
def State.HoldsOwn (k : Byte) (s : State) : Prop :=
  ∃ x ∈ s.tu.routineEntries, x.mark = .own ∧ Frame.kind (s.buf x.buf).frame = k ∧ (s.buf x.buf).state ≠ .free

theorem State.ownInFlight_iff {k : Byte} {s : State} : s.ownInFlight k = true ↔
    ∃ x ∈ s.tu.routineEntries, x.mark = .own ∧ Frame.kind (s.buf x.buf).frame = k := by
  simp only [State.ownInFlight, Tu.routineEntries, List.any_eq_true, Bool.and_eq_true, decide_eq_true_eq]

theorem State.HoldsOwn.inFlight {k : Byte} {s : State} (h : s.HoldsOwn k) : s.ownInFlight k = true := by
  obtain ⟨x, hx, hm, hk, _⟩ := h
  exact State.ownInFlight_iff.2 ⟨x, hx, hm, hk⟩

theorem State.HoldsOwn.carried {k : Byte} {s t : State} (h : s.HoldsOwn k) (c : s.Carries t) : t.HoldsOwn k := by
  obtain ⟨x, hx, hm, hk, hf⟩ := h
  obtain ⟨y, hy, hyb, hym⟩ := c.entries x hx
  obtain ⟨hf', hfr⟩ := c.frames x.buf hf
  exact ⟨y, hy, hym.trans hm, by rw [hyb, hfr]; exact hk, by rw [hyb]; exact hf'⟩

theorem Frame.kind_compose (c : ConfigRecord) (k : Byte) (body : List Byte) : Frame.kind (Frame.compose c k body) = k :=
  rfl

/-- An OBSERVATION made is in flight (R118, R137). -/
theorem State.originateBare_observation_holds {s t : State} (h : s.originateBare .observation = some t) :
    t.HoldsOwn kindObservation := by
  obtain ⟨_, b, _, rfl⟩ := State.originateBare_some h
  have hbuf (x : Buffer) : ((s.setBuf b x).moveBuf b .queued).buf b = { x with state := .queued } := by
    rw [State.buf_moveBuf, if_pos rfl, State.buf_setBuf, if_pos rfl]
  refine State.HoldsOwn.carried ⟨_, List.mem_append_right _ (List.mem_append_right _ List.mem_cons_self), rfl, ?_, ?_⟩
    (State.select_carries _)
  · exact (congrArg (fun x : Buffer => Frame.kind x.frame) (hbuf _)).trans (Frame.kind_compose _ _ _)
  · exact fun hf => absurd ((congrArg Buffer.state (hbuf _)).symm.trans hf) nofun

/-- Under a raised busy flag an OBSERVATION in flight is not asked for again (R60, R112). -/
theorem State.recount_of_inFlight {s : State} (h : s.ownInFlight kindObservation = true) :
    s.recount = { s with pool := { s.pool with busy := busyAfter s.pool.busy s.pool.freeCount } } := by
  unfold State.recount
  dsimp only
  split
  · exact if_pos h
  · rfl

theorem State.HoldsOwn.recount {s : State} (h : s.HoldsOwn kindObservation) : s.recount.HoldsOwn kindObservation := by
  rw [State.recount_of_inFlight h.inFlight]
  exact h.carried (.of_eq rfl rfl)

/-- Where an OBSERVATION can be made, the recount makes it or leaves it possible (R112). -/
theorem State.recount_inFlight_or_can {s : State} (h : s.CanOriginate .routine) :
    s.recount.ownInFlight kindObservation = true ∨ s.recount.CanOriginate .routine := by
  unfold State.recount
  dsimp only
  split
  · left
    unfold State.busyObservation
    split
    · assumption
    · obtain ⟨t, ht⟩ := State.originateBare_of_can (o := .observation)
        (s := { s with pool := { s.pool with busy := busyAfter s.pool.busy s.pool.freeCount } }) h
      rw [ht]
      exact (State.originateBare_observation_holds ht).inFlight
  · exact .inr h

theorem State.originate_eq_some {o : OwnFrame} {s t : State} (h : s.originate o = some t) :
    ∃ u, s.originateBare o = some u ∧ u.recount = t := Option.map_eq_some_iff.1 h

/-- Every origination keeps an OBSERVATION in flight. -/
theorem State.HoldsOwn.originate {o : OwnFrame} {s t : State} (h : s.HoldsOwn kindObservation)
    (ho : s.originate o = some t) : t.HoldsOwn kindObservation := by
  obtain ⟨u, hu, rfl⟩ := State.originate_eq_some ho
  exact (h.carried (State.originateBare_carries hu)).recount

/-- An OBSERVATION asked for where one is in flight or can be made is in flight (R60, R138). -/
theorem State.requestObservation_inFlight {s : State}
    (h : s.ownInFlight kindObservation = true ∨ s.CanOriginate .routine) :
    s.requestObservation.ownInFlight kindObservation = true := by
  unfold State.requestObservation
  split
  · assumption
  · rename_i hno
    obtain ⟨t, ht⟩ := State.originateBare_of_can (o := .observation) (h.resolve_left hno)
    rw [State.originate, ht]
    exact (State.originateBare_observation_holds ht).recount.inFlight

/-- An OBSERVATION that cannot be made is skipped (R138). -/
theorem State.requestObservation_of_cannot {s : State} (h : ¬ s.CanOriginate .routine) : s.requestObservation = s := by
  unfold State.requestObservation
  split
  · rfl
  · rw [State.originate, State.originateBare_of_cannot (o := .observation) h]
    rfl

/-- The part of `State.PoolSound` that an urgent offer rests on: no entry stands in a FREE buffer, and the urgent queue holds
frames of its own class. -/
structure State.EntriesHeld (s : State) : Prop where
  current : ∀ x ∈ s.tu.current, (s.buf x.buf).state ≠ .free
  routine : ∀ x ∈ s.tu.routine, (s.buf x.buf).state ≠ .free
  urgent : ∀ x ∈ s.tu.urgent, (s.buf x.buf).state ≠ .free ∧ (s.buf x.buf).cls = some .urgent

theorem State.PoolSound.entriesHeld {s : State} (h : s.PoolSound) : s.EntriesHeld where
  current := fun x hx => by
    obtain ⟨c, ⟨hst, _⟩, _⟩ := h.current x hx
    rw [hst]; nofun
  routine := fun x hx => by
    obtain ⟨⟨hst, _⟩, _⟩ := h.routine x hx
    rw [hst]; nofun
  urgent := fun x hx => by
    obtain ⟨⟨hst, hcls⟩, _⟩ := h.urgent x hx
    exact ⟨by rw [hst]; nofun, hcls⟩

theorem State.EntriesHeld.of_eq {s t : State} (h : s.EntriesHeld) (hp : t.pool = s.pool) (ht : t.tu = s.tu) :
    t.EntriesHeld := by
  refine ⟨?_, ?_, ?_⟩ <;> rw [ht] <;> intro x hx <;> rw [State.buf_congr hp]
  · exact h.current x hx
  · exact h.routine x hx
  · exact h.urgent x hx

theorem State.EntriesHeld.holds {k : Byte} {s : State} (hs : s.EntriesHeld) (h : s.ownInFlight k = true) :
    s.HoldsOwn k := by
  obtain ⟨x, hx, hm, hk⟩ := State.ownInFlight_iff.1 h
  refine ⟨x, hx, hm, hk, ?_⟩
  rcases List.mem_append.1 hx with hx | hx
  · exact hs.current x (by simpa using hx)
  · exact hs.routine x hx

/-- Where no entry stands in a FREE buffer, an OBSERVATION asked for that can be made is in flight in a buffer taken. -/
theorem State.requestObservation_holds {s : State} (hs : s.EntriesHeld) (h : s.CanOriginate .routine) :
    s.requestObservation.HoldsOwn kindObservation := by
  unfold State.requestObservation
  split
  · rename_i hin
    exact hs.holds hin
  · obtain ⟨t, ht⟩ := State.originateBare_of_can (o := .observation) h
    rw [State.originate, ht]
    exact (State.originateBare_observation_holds ht).recount

/-! ## The room an urgent frame leaves -/

/-- From `s` to `t` no FREE buffer is taken and no routine place more. -/
structure State.KeepsRoom (s t : State) : Prop where
  free : ∀ b, (s.buf b).state = .free → (t.buf b).state = .free
  places : t.placesTaken .routine ≤ s.placesTaken .routine

theorem State.KeepsRoom.trans {s t u : State} (h : s.KeepsRoom t) (k : t.KeepsRoom u) : s.KeepsRoom u :=
  ⟨fun b hb => k.free b (h.free b hb), Nat.le_trans k.places h.places⟩

theorem State.KeepsRoom.refl (s : State) : s.KeepsRoom s := ⟨fun _ => id, Nat.le_refl _⟩

theorem State.placesTaken_routine (s : State) :
    s.placesTaken .routine = s.tu.routine.length + if s.currentIs .routine then 1 else 0 := rfl

/-- A buffer that is not FREE may be moved to any state without a FREE one being taken. -/
theorem State.free_moveBuf {b c : Fin 8} {st : BufState} {s : State} (hb : (s.buf b).state ≠ .free)
    (hc : (s.buf c).state = .free) : ((s.moveBuf b st).buf c).state = .free := by
  rw [State.state_moveBuf, if_neg (fun h : c = b => hb (h ▸ hc))]
  exact hc

/-- A preempted frame's buffer is QUEUED, and the urgent queue stands (R126). -/
theorem State.preempt_entriesHeld {s : State} (h : s.EntriesHeld) : s.preempt.EntriesHeld := by
  rcases State.preempt_cases s with he | ⟨e, he, _, hbuf, hcur, hurg, hrou⟩
  · rw [he]; exact h
  · have held : ∀ b, (s.buf b).state ≠ .free → (s.preempt.buf b).state ≠ .free :=
      fun b hb => ((State.preempt_carries s).frames b hb).1
    refine ⟨?_, ?_, ?_⟩
    · rw [hcur]; nofun
    · rw [hrou]
      exact List.forall_mem_cons.2 ⟨held _ (h.current e he), fun x hx => held _ (h.routine x hx)⟩
    · rw [hurg]
      intro x hx
      obtain ⟨hf, hcls⟩ := h.urgent x hx
      exact ⟨held _ hf, by rw [hbuf, State.cls_moveBuf]; exact hcls⟩

theorem State.preempt_keepsRoom {s : State} (h : s.EntriesHeld) : s.KeepsRoom s.preempt := by
  rcases State.preempt_cases s with he | ⟨e, he, hcls, hbuf, hcur, _, hrou⟩
  · rw [he]; exact .refl s
  · refine ⟨fun b hb => ?_, ?_⟩
    · rw [hbuf]
      exact State.free_moveBuf (h.current e he) hb
    · have before : s.currentIs .routine = true := State.currentIs_iff.2 ⟨e, he, hcls⟩
      have now : ¬ s.preempt.currentIs .routine = true := by
        rw [State.currentIs_iff, hcur]; nofun
      rw [State.placesTaken_routine, State.placesTaken_routine, if_pos before, if_neg now, hrou]
      exact Nat.le_refl _

theorem State.select_keepsRoom {s : State} (h : s.EntriesHeld) : s.KeepsRoom s.select := by
  unfold State.select
  split
  · rename_i hidle
    split
    · rename_i e rest hu
      obtain ⟨hf, hcls⟩ := h.urgent e (by rw [hu]; exact List.mem_cons_self)
      refine ⟨fun b hb => State.free_moveBuf (s := s) hf hb, ?_⟩
      have now : ¬ (({ s with tu := { s.tu with urgent := rest } } : State).takeEntry e).currentIs .routine = true := by
        rw [State.currentIs_iff]
        rintro ⟨x, hx, hxc⟩
        cases hx
        have := (State.cls_moveBuf e.buf e.buf .sending s).symm.trans hxc
        exact absurd (hcls.symm.trans this) (by simp)
      rw [State.placesTaken_routine, if_neg now]
      exact Nat.le_add_right _ _
    · split
      · rename_i e rest hr
        split
        · exact .refl s
        · refine ⟨fun b hb => State.free_moveBuf (s := s) (h.routine e (by rw [hr]; exact List.mem_cons_self)) hb, ?_⟩
          rw [State.placesTaken_routine, State.placesTaken_routine, hr]
          have one : (if (({ s with tu := { s.tu with routine := rest } } : State).takeEntry e).currentIs .routine then 1
              else 0) ≤ 1 := by split <;> omega
          exact Nat.le_trans (Nat.add_le_add_left one _) (Nat.le_add_right (rest.length + 1) _)
      · exact .refl s
  · exact .refl s

theorem State.currentClass_eq (s : State) :
    s.currentClass = (s.tu.current.map (fun e => (e.buf, e.mark))).bind (fun p => (s.buf p.1).cls) := by
  rw [Option.bind_map]
  rfl

theorem State.startWatch_keepsRoom (s : State) : s.KeepsRoom s.startWatch := by
  obtain ⟨hpool, hrou, hcur⟩ := State.startWatch_keeps s
  have same : s.startWatch.currentIs .routine = s.currentIs .routine := by
    rw [State.currentIs, State.currentIs, State.currentClass_eq, State.currentClass_eq s, hcur]
    simp only [State.buf_congr hpool]
  refine ⟨fun b hf => by rw [State.buf_congr hpool]; exact hf, ?_⟩
  exact Nat.le_of_eq (by rw [State.placesTaken_routine, State.placesTaken_routine, hrou, same])

theorem State.buf_queueUrgent (b c : Fin 8) (mark : OriginMark) (s : State) :
    (s.queueUrgent b mark).buf c = (s.moveBuf b .queued).buf c := rfl

/-- An urgent frame composed in a FREE buffer and offered leaves every other FREE buffer and every routine place. -/
theorem State.accept_urgent_room {b : Fin 8} {mark : OriginMark} {x : Buffer} {s u : State} (hs : s.EntriesHeld)
    (hb : (s.buf b).state = .free) (hx : x.cls = some .urgent) (hpool : u.pool = (s.setBuf b x).pool)
    (htu : u.tu = s.tu) :
    s.pool.freeCount ≤ (u.accept b mark .urgent).pool.freeCount + 1 ∧
      (u.accept b mark .urgent).placesTaken .routine ≤ s.placesTaken .routine := by
  have hbuf : ∀ c, (u.queueUrgent b mark).buf c = if c = b then { x with state := .queued } else s.buf c := by
    intro c
    have hu : ∀ c, u.buf c = if c = b then x else s.buf c := fun c =>
      (State.buf_congr (s := s.setBuf b x) hpool c).trans (State.buf_setBuf b c x s)
    rw [State.buf_queueUrgent, State.buf_moveBuf, hu, hu, if_pos rfl]
    split <;> rfl
  have other : ∀ c, (s.buf c).state ≠ .free → (u.queueUrgent b mark).buf c = s.buf c := fun c hc => by
    rw [hbuf, if_neg (fun h : c = b => hc (h ▸ hb))]
  have held : (u.queueUrgent b mark).EntriesHeld := by
    refine ⟨fun y hy => ?_, fun y hy => ?_, fun y hy => ?_⟩
    · have hy' := hs.current y (htu ▸ hy)
      rw [other _ hy']; exact hy'
    · have hy' := hs.routine y (htu ▸ hy)
      rw [other _ hy']; exact hy'
    · rcases List.mem_append.1 hy with hy | hy
      · have hy' := hs.urgent y (htu ▸ hy)
        rw [other _ hy'.1]; exact hy'
      · rw [List.mem_singleton.1 hy, hbuf, if_pos rfl]
        exact ⟨nofun, hx⟩
  have places : (u.queueUrgent b mark).placesTaken .routine = s.placesTaken .routine := by
    have same : (u.queueUrgent b mark).currentIs .routine = s.currentIs .routine := by
      have hcur : (u.queueUrgent b mark).tu.current = s.tu.current := by rw [← htu]; rfl
      rw [State.currentIs, State.currentIs, State.currentClass, State.currentClass, hcur]
      cases hc : s.tu.current with
      | none => rfl
      | some e => rw [Option.bind_some, Option.bind_some, other _ (hs.current e hc)]
    have hrou : (u.queueUrgent b mark).tu.routine = s.tu.routine := by rw [← htu]; rfl
    rw [State.placesTaken_routine, State.placesTaken_routine, same, hrou]
  have room := ((State.preempt_keepsRoom held).trans (State.select_keepsRoom (State.preempt_entriesHeld held))).trans
    (State.startWatch_keepsRoom _)
  rw [State.accept_urgent]
  refine ⟨Pool.freeCount_le_succ b (fun c hc hf => room.free c ?_), Nat.le_trans room.places (Nat.le_of_eq places)⟩
  rw [hbuf, if_neg hc]
  exact hf

/-! ## An OBSERVATION in flight, or one that can be made -/

/-- An OBSERVATION asked for now would be in flight after (R60, R137). -/
def State.ObservationReady (s : State) : Prop := s.ownInFlight kindObservation = true ∨ s.CanOriginate .routine

theorem State.currentIs_congr {c : FrameClass} {s t : State} (hp : t.pool = s.pool) (ht : t.tu = s.tu) :
    t.currentIs c = s.currentIs c := by
  rw [Bool.eq_iff_iff, State.currentIs_iff, State.currentIs_iff, ht]
  simp only [State.buf_congr hp]

theorem State.canOriginate_congr {c : FrameClass} {s t : State} (hp : t.pool = s.pool) (ht : t.tu = s.tu) :
    t.CanOriginate c ↔ s.CanOriginate c := by
  have places : ∀ c, t.placesTaken c = s.placesTaken c := fun c => by
    unfold State.placesTaken
    rw [State.currentIs_congr hp ht, ht]
  have free : t.placeFree c = s.placeFree c := by
    unfold State.placeFree
    rw [places, places]
  rw [State.CanOriginate, State.CanOriginate, hp, free]

theorem State.ownInFlight_congr {k : Byte} {s t : State} (hp : t.pool = s.pool) (ht : t.tu = s.tu) :
    t.ownInFlight k = s.ownInFlight k := by
  rw [Bool.eq_iff_iff, State.ownInFlight_iff, State.ownInFlight_iff, ht]
  simp only [State.buf_congr hp]

theorem State.observationReady_congr {s t : State} (hp : t.pool = s.pool) (ht : t.tu = s.tu) :
    t.ObservationReady ↔ s.ObservationReady := by
  rw [State.ObservationReady, State.ObservationReady, State.ownInFlight_congr hp ht, State.canOriginate_congr hp ht]

theorem State.HoldsOwn.askFire {s : State} (h : s.HoldsOwn kindObservation) (c : FireCause) (e : Nat) :
    (s.askFire c e).HoldsOwn kindObservation := by
  unfold State.askFire
  split
  · rename_i ho
    exact h.originate ho
  · split
    · exact h
    · exact h.carried (.of_eq rfl rfl)

/-- With one buffer to spare, a FIRE asked for leaves an OBSERVATION possible, or one is made under the busy flag. -/
theorem State.askFire_observationReady {s : State} (hs : s.EntriesHeld) (hf : 4 ≤ s.pool.freeCount)
    (hp : s.placeFree .routine = true) (c : FireCause) (e : Nat) : (s.askFire c e).ObservationReady := by
  have can : s.CanOriginate .routine := ⟨decide_eq_true (by omega), hp⟩
  unfold State.askFire
  split
  · rename_i t ho
    obtain ⟨u, hu, rfl⟩ := State.originate_eq_some ho
    obtain ⟨_, b, hb, rfl⟩ := State.originateBare_some hu
    obtain ⟨hpool, htu⟩ := State.recordOwn_keeps (.fire c e) (s.setBuf b
      { state := .queued, cls := some (OwnFrame.fire c e).cls, frame := s.composeOwn (.fire c e), level := none })
    obtain ⟨hfree, hplaces⟩ := State.accept_urgent_room (mark := .own) hs hb rfl hpool htu
    exact State.recount_inFlight_or_can ⟨decide_eq_true (Nat.le_of_succ_le_succ (Nat.le_trans hf hfree)),
      decide_eq_true (Nat.lt_of_le_of_lt hplaces (of_decide_eq_true hp))⟩
  · split
    · exact .inr can
    · exact .inr ((State.canOriginate_congr rfl rfl).2 can)

end Sys2Proof.Machine
end

section
/-! SUPPORT. What a change of the detection state brings to the detection record (R47, R50, R55, R56, R59), and the rule of
each state (R41 to R46). -/
namespace Sys2Proof.Machine

/-! ## The detection record at a change of state -/

/-- The record once a pending profile, where there is one, is in force (R55, R56). -/
def Detection.profileTaken (now : Us) (d : Detection) : Detection :=
  match d.pendingProfile with
  | some p =>
    { d with
      profile := p
      pendingProfile := none
      serviceLimit := if p = .service then some (now + 14400000000) else none }
  | none => d

/-- The record in a new state: counts and verify timer (R47), and on leaving VERIFY the pending profile (R56). -/
def Detection.entered (st : DetState) (now : Us) (d : Detection) : Detection :=
  let d1 : Detection :=
    { d with state := st, hyst := 0, sat := 0, verifyStart := if st = .verify then some (now / 1000) else none }
  if d.state = .verify then d1.profileTaken now else d1

theorem Detection.profileTaken_of_none {d : Detection} (now : Us) (h : d.pendingProfile = none) :
    d.profileTaken now = d := by
  rw [Detection.profileTaken, h]

theorem Detection.profileTaken_of_some {d : Detection} {p : Profile} (now : Us) (h : d.pendingProfile = some p) :
    d.profileTaken now = { d with
      profile := p
      pendingProfile := none
      serviceLimit := if p = .service then some (now + 14400000000) else none } := by
  rw [Detection.profileTaken, h]

/-- Taking the pending profile writes the profile items alone. -/
theorem Detection.profileTaken_writes (now : Us) (d : Detection) : ∃ profile pending limit,
    d.profileTaken now = { d with profile := profile, pendingProfile := pending, serviceLimit := limit } := by
  cases h : d.pendingProfile with
  | none => exact ⟨d.profile, d.pendingProfile, d.serviceLimit, Detection.profileTaken_of_none now h⟩
  | some p => exact ⟨_, _, _, Detection.profileTaken_of_some now h⟩

/-- A change of state writes the state, the counts, the verify timer and the profile items alone. -/
theorem Detection.entered_writes (st : DetState) (now : Us) (d : Detection) : ∃ profile pending limit,
    d.entered st now = { d with
      state := st, hyst := 0, sat := 0, verifyStart := if st = .verify then some (now / 1000) else none
      profile := profile, pendingProfile := pending, serviceLimit := limit } := by
  unfold Detection.entered
  dsimp only
  split
  · exact Detection.profileTaken_writes now _
  · exact ⟨d.profile, d.pendingProfile, d.serviceLimit, rfl⟩

@[simp] theorem Detection.entered_state (st : DetState) (now : Us) (d : Detection) : (d.entered st now).state = st := by
  obtain ⟨_, _, _, h⟩ := Detection.entered_writes st now d
  rw [h]

@[simp] theorem Detection.entered_hyst (st : DetState) (now : Us) (d : Detection) : (d.entered st now).hyst = 0 := by
  obtain ⟨_, _, _, h⟩ := Detection.entered_writes st now d
  rw [h]

@[simp] theorem Detection.entered_sat (st : DetState) (now : Us) (d : Detection) : (d.entered st now).sat = 0 := by
  obtain ⟨_, _, _, h⟩ := Detection.entered_writes st now d
  rw [h]

@[simp] theorem Detection.entered_verifyStart (st : DetState) (now : Us) (d : Detection) :
    (d.entered st now).verifyStart = if st = .verify then some (now / 1000) else none := by
  obtain ⟨_, _, _, h⟩ := Detection.entered_writes st now d
  rw [h]

/-- The declaration's items stand (R50, R52). -/
theorem Detection.entered_keeps (st : DetState) (now : Us) (d : Detection) :
    (d.entered st now).refresh = d.refresh ∧ (d.entered st now).cause = d.cause ∧
      (d.entered st now).evidence = d.evidence := by
  obtain ⟨_, _, _, h⟩ := Detection.entered_writes st now d
  rw [h]
  exact ⟨rfl, rfl, rfl⟩

/-- On leaving VERIFY a pending profile comes into force (R56). -/
theorem Detection.entered_profile_of_pending {d : Detection} {p : Profile} (st : DetState) (now : Us)
    (hv : d.state = .verify) (hp : d.pendingProfile = some p) :
    (d.entered st now).profile = p ∧ (d.entered st now).pendingProfile = none ∧
      (d.entered st now).serviceLimit = if p = .service then some (now + 14400000000) else none := by
  unfold Detection.entered
  dsimp only
  rw [if_pos hv, Detection.profileTaken_of_some now (by exact hp)]
  exact ⟨rfl, rfl, rfl⟩

/-- Without a profile that VERIFY held back the profile items stand. -/
theorem Detection.entered_profile_of_not_pending {d : Detection} (st : DetState) (now : Us)
    (h : ¬ (d.state = .verify ∧ d.pendingProfile ≠ none)) :
    (d.entered st now).profile = d.profile ∧ (d.entered st now).pendingProfile = d.pendingProfile ∧
      (d.entered st now).serviceLimit = d.serviceLimit := by
  unfold Detection.entered
  dsimp only
  by_cases hv : d.state = .verify
  · have hp : d.pendingProfile = none := Decidable.byContradiction (fun hp => h ⟨hv, hp⟩)
    rw [if_pos hv, Detection.profileTaken_of_none now (by exact hp)]
    exact ⟨rfl, rfl, rfl⟩
  · rw [if_neg hv]
    exact ⟨rfl, rfl, rfl⟩

/-! ## The operations of a change of state -/

/-- The first part of every change of state: the new state, and on leaving VERIFY the pending profile (R47, R56). -/
def State.enterState (st : DetState) (s : State) : State :=
  if s.det.state = .verify then (s.setDetState st).takePending else s.setDetState st

theorem State.changeState_eq (st : DetState) (s : State) : s.changeState st = (s.enterState st).announceState := rfl

theorem State.enterFireState_eq (c : FireCause) (s : State) :
    s.enterFireState c = ((s.enterState .fire).declare c).announceState := rfl

theorem State.takePending_of_none {s : State} (h : s.det.pendingProfile = none) : s.takePending = s := by
  rw [State.takePending, h]

theorem State.takePending_of_some {s : State} {p : Profile} (h : s.det.pendingProfile = some p) :
    s.takePending = ({ s with det := s.det.profileTaken s.now } : State).requestObservation.panelRecord .profile
      s.cfg.address s.cfg.zone p.code 0 := by
  rw [State.takePending, h, Detection.profileTaken_of_some s.now h]
  rfl

/-- Beside the detection record, a pending profile touches the transmit path and the status line alone. -/
theorem State.takePending_frame (s : State) :
    ({ s with det := s.det.profileTaken s.now } : State).FaultFrame s.takePending := by
  cases h : s.det.pendingProfile with
  | none =>
    rw [State.takePending_of_none h, Detection.profileTaken_of_none s.now h]
    exact .refl s
  | some p =>
    rw [State.takePending_of_some h]
    exact (State.requestObservation_frame _).fault.trans (State.panelRecord_frame _ _ _ _ _ _)

theorem State.enterState_frame (st : DetState) (s : State) :
    ({ s with det := s.det.entered st s.now } : State).FaultFrame (s.enterState st) := by
  unfold State.enterState Detection.entered
  dsimp only
  split
  · exact State.takePending_frame (s.setDetState st)
  · exact .refl (s.setDetState st)

/-- The end of a change of state: the observation timer for the state it finds, and the transmit path (R47, R59). -/
theorem State.announceState_frame (s : State) :
    ({ s with det := { s.det with observation := some (s.now + s.observationTime) } } : State).TxFrame s.announceState :=
  (State.observationDrawn_frame _).trans (State.requestObservation_frame _)

theorem State.enterFire_det (o : Addr) (z c : Byte) (s : State) : (s.enterFire o z c).det = s.det := by
  unfold State.enterFire
  dsimp only
  split
  · rfl
  · split
    · exact (State.panelRecord_frame _ _ _ _ _ _).det
    · rfl

/-- A declaration records the evidence and the cause and starts the refresh timer (R50, R52). -/
theorem State.declare_det (c : FireCause) (s : State) : (s.declare c).det = { s.det with
    cause := some c, evidence := some s.ev.e, refresh := some (s.now + 30000000) } := by
  unfold State.declare
  dsimp only
  rw [(State.askFire_frame _ _ _).det, State.enterFire_det]
  rfl

/-- The observation timer's duration outside QUIET (R59). -/
theorem State.observationTime_of_ne_quiet {s : State} (h : s.det.state ≠ .quiet) : s.observationTime = 4000000 := by
  rw [State.observationTime, if_neg h]
  rfl

/-- The observation timer's duration in QUIET, with a draw of 0 to 7 s (R59). -/
theorem State.observationTime_of_quiet {s : State} (h : s.det.state = .quiet) :
    ∃ j, j ≤ 7 ∧ s.observationTime = (s.cfg.observationPeriod + j) * 1000000 := by
  refine ⟨s.drawOf 8, Nat.le_of_lt_succ (Nat.mod_lt _ (by omega)), ?_⟩
  rw [State.observationTime, if_pos h]
  exact (Nat.add_mul _ _ _).symm

theorem State.changeState_det (st : DetState) (s : State) : (s.changeState st).det =
    { s.det.entered st s.now with observation := some (s.now + (s.enterState st).observationTime) } := by
  have h := State.enterState_frame st s
  rw [State.changeState_eq, (State.announceState_frame _).det, h.det, h.now]

theorem State.enterFireState_det (c : FireCause) (s : State) : (s.enterFireState c).det =
    { s.det.entered .fire s.now with
      cause := some c, evidence := some s.ev.e, refresh := some (s.now + 30000000)
      observation := some (s.now + 4000000) } := by
  have h := State.enterState_frame .fire s
  have hd : ((s.enterState .fire).declare c).det = { s.det.entered .fire s.now with
      cause := some c, evidence := some s.ev.e, refresh := some (s.now + 30000000) } := by
    rw [State.declare_det, h.det, h.ev, h.now]
  have hq : ((s.enterState .fire).declare c).det.state ≠ .quiet := by
    rw [hd]
    simp
  have hnow : ((s.enterState .fire).declare c).now = s.now := (State.declare_kept c _).now.trans h.now
  rw [State.enterFireState_eq, (State.announceState_frame _).det, State.observationTime_of_ne_quiet hq, hd, hnow]

@[simp] theorem State.changeState_state (st : DetState) (s : State) : (s.changeState st).det.state = st := by
  rw [State.changeState_det]
  simp

@[simp] theorem State.enterFireState_state (c : FireCause) (s : State) : (s.enterFireState c).det.state = .fire := by
  rw [State.enterFireState_det]
  simp

@[simp] theorem State.changeState_counts (st : DetState) (s : State) :
    (s.changeState st).det.hyst = 0 ∧ (s.changeState st).det.sat = 0 := by
  rw [State.changeState_det]
  simp

@[simp] theorem State.changeState_verifyStart (st : DetState) (s : State) :
    (s.changeState st).det.verifyStart = if st = .verify then some (s.now / 1000) else none := by
  rw [State.changeState_det]
  simp

theorem State.enterFireState_record (c : FireCause) (s : State) :
    (s.enterFireState c).det.verifyStart = none ∧ (s.enterFireState c).det.evidence = some s.ev.e ∧
      (s.enterFireState c).det.cause = some c := by
  rw [State.enterFireState_det]
  simp

/-- The observation timer after a change of state (R59). -/
theorem State.changeState_observation_of_ne_quiet {st : DetState} (s : State) (h : st ≠ .quiet) :
    (s.changeState st).det.observation = some (s.now + 4000000) := by
  have hq : (s.enterState st).det.state ≠ .quiet := by
    rw [(State.enterState_frame st s).det]
    simpa using h
  rw [State.changeState_det, State.observationTime_of_ne_quiet hq]

theorem State.changeState_observation_of_quiet (s : State) : ∃ j, j ≤ 7 ∧
    (s.changeState .quiet).det.observation = some (s.now + (s.cfg.observationPeriod + j) * 1000000) := by
  have hf := State.enterState_frame .quiet s
  have hq : (s.enterState .quiet).det.state = .quiet := by
    rw [hf.det]
    simp
  obtain ⟨j, hj, ht⟩ := State.observationTime_of_quiet hq
  refine ⟨j, hj, ?_⟩
  rw [State.changeState_det, ht, hf.cfg]
  rfl

/-! ## The rule of each state -/

/-- Step 4 where the fixed-heat test holds (R41). -/
theorem State.transitions_of_hot {theta : Option Int} {s : State} (hs : s.det.state ≠ .fire)
    (h : ∃ th, theta = some th ∧ (s.cfg.heatLimit : Int) ≤ th) : s.transitions theta = s.enterFireState .heatFixed := by
  obtain ⟨th, rfl, hth⟩ := h
  rw [State.transitions, if_pos ⟨hs, by simpa using hth⟩]

/-- Step 4 where it does not: the rule of the state (R40). -/
theorem State.transitions_of_cool {theta : Option Int} {s : State} (h : ∀ th ∈ theta, th < (s.cfg.heatLimit : Int)) :
    (s.det.state = .quiet → s.transitions theta = if s.levels.watch ≤ s.ev.e then s.changeState .watch else s) ∧
    (s.det.state = .watch → s.transitions theta = s.watchRule) ∧
    (s.det.state = .verify → s.transitions theta = s.verifyRule) := by
  have hcool : ¬ (s.det.state ≠ .fire ∧ theta.any (fun t => decide ((s.cfg.heatLimit : Int) ≤ t)) = true) := by
    rintro ⟨_, hany⟩
    cases theta with
    | none => exact absurd hany (by simp)
    | some th => exact absurd (h th rfl) (Int.not_lt.2 (by simpa using hany))
  unfold State.transitions
  rw [if_neg hcool]
  refine ⟨fun hs => ?_, fun hs => ?_, fun hs => ?_⟩ <;> rw [hs]

/-- FIRE is left by no evaluation (R46). -/
theorem State.transitions_of_fire (theta : Option Int) {s : State} (hs : s.det.state = .fire) :
    s.transitions theta = s := by
  rw [State.transitions, if_neg (fun h => h.1 hs), hs]

/-- The count of evaluations below the falling level reaches its third (R43, R45). -/
theorem three_le_hystAfter (count e level : Nat) : 3 ≤ hystAfter count e level ↔ e < level - 50 ∧ 2 ≤ count := by
  unfold hystAfter
  split <;> omega

/-- The rule of WATCH (R43), case by case. -/
theorem State.watchRule_rises {s : State} (h : s.levels.alarm ≤ s.ev.e) : s.watchRule = s.changeState .verify :=
  if_pos h

theorem State.watchRule_falls {s : State} (ha : s.ev.e < s.levels.alarm) (hw : s.ev.e < s.levels.watch - 50)
    (hc : 2 ≤ s.det.hyst) : s.watchRule = s.changeState .quiet := by
  rw [State.watchRule, if_neg (Nat.not_le.2 ha)]
  exact if_pos ((three_le_hystAfter _ _ _).2 ⟨hw, hc⟩)

theorem State.watchRule_stays {s : State} (ha : s.ev.e < s.levels.alarm)
    (h : ¬ (s.ev.e < s.levels.watch - 50 ∧ 2 ≤ s.det.hyst)) :
    s.watchRule = { s with det := { s.det with hyst := hystAfter s.det.hyst s.ev.e s.levels.watch } } := by
  rw [State.watchRule, if_neg (Nat.not_le.2 ha)]
  exact if_neg (fun h3 => h ((three_le_hystAfter _ _ _).1 h3))

/-- The counts of VERIFY leave what its conditions read beside the saturation count (R45). -/
theorem State.verifyCounts_reads (s : State) :
    s.verifyCounts.det.sat = (if s.ev.e = 1000 then s.det.sat + 1 else 0) ∧ s.verifyCounts.levels = s.levels ∧
      s.verifyCounts.ms = s.ms ∧ s.verifyCounts.cfg = s.cfg ∧ s.verifyCounts.verifyTime = s.verifyTime :=
  ⟨rfl, rfl, rfl, rfl, rfl⟩

/-- The four conditions for fire in VERIFY, with the saturation count after the evaluation (R45). -/
theorem State.verifyFires_verifyCounts (s : State) : s.verifyCounts.verifyFires = true ↔
    (s.levels.confirm ≤ corroboration s.ms s.cfg.zone s.ev.e s.nt ∧
      ∃ n ∈ s.nt, 0 < contribution s.ms s.cfg.zone n) ∨
    (s.ev.e = 1000 ∧ 7 ≤ s.det.sat) ∨
    ((∀ n ∈ s.nt, ¬ (n.status = .live ∧ n.zone = some s.cfg.zone)) ∧ s.cfg.verifySolo * 1000 ≤ s.verifyTime ∧
      s.levels.alarm ≤ s.ev.e) ∨
    (s.levels.verifyMax * 1000 ≤ s.verifyTime ∧ s.levels.alarm ≤ s.ev.e) := by
  have hsat : 8 ≤ (if s.ev.e = 1000 then s.det.sat + 1 else 0) ↔ s.ev.e = 1000 ∧ 7 ≤ s.det.sat := by
    split <;> omega
  have hsolo : sameZoneLive s.cfg.zone s.nt = false ↔
      ∀ n ∈ s.nt, ¬ (n.status = .live ∧ n.zone = some s.cfg.zone) := by
    simp [sameZoneLive]
  obtain ⟨hsatAfter, hlevels, hms, hcfg, htime⟩ := State.verifyCounts_reads s
  simp only [State.verifyFires, hsatAfter, hlevels, hms, hcfg, htime, State.verifyCounts_ev, State.verifyCounts_nt,
    Bool.or_eq_true, Bool.and_eq_true, Bool.not_eq_true', decide_eq_true_eq, hsat, hsolo, anyContributor,
    List.any_eq_true, or_assoc, and_assoc]

theorem State.three_le_verifyCounts_hyst (s : State) :
    3 ≤ s.verifyCounts.det.hyst ↔ s.ev.e < s.levels.alarm - 50 ∧ 2 ≤ s.det.hyst := three_le_hystAfter _ _ _

/-- The rule of VERIFY (R45), case by case. -/
theorem State.verifyRule_fires {s : State} (h : s.verifyCounts.verifyFires = true) :
    s.verifyRule = s.enterFireState s.verifyCause := by
  rw [State.verifyRule, if_pos h, State.enterFireState_verifyCounts]
  rfl

theorem State.verifyRule_falls {s : State} (h : ¬ s.verifyCounts.verifyFires = true)
    (he : s.ev.e < s.levels.alarm - 50) (hc : 2 ≤ s.det.hyst) : s.verifyRule = s.changeState .watch := by
  rw [State.verifyRule, if_neg h, if_pos (s.three_le_verifyCounts_hyst.2 ⟨he, hc⟩), State.changeState_verifyCounts]

theorem State.verifyRule_stays {s : State} (h : ¬ s.verifyCounts.verifyFires = true)
    (hf : ¬ (s.ev.e < s.levels.alarm - 50 ∧ 2 ≤ s.det.hyst)) : s.verifyRule = s.verifyCounts := by
  rw [State.verifyRule, if_neg h, if_neg (fun h3 => hf (s.three_le_verifyCounts_hyst.1 h3))]

/-- The cause of a declaration by a condition of VERIFY (R50). -/
theorem State.verifyCause_eq (s : State) : s.verifyCause =
    if 0 < s.ev.esw ∧ 0 < s.ev.eh then .smokeAndHeat
    else if 0 < s.ev.esw then .smoke
    else if 0 < s.ev.eh then .heatRate
    else if s.cfg.role = .heat then .heatRate else .smoke := by
  unfold State.verifyCause
  by_cases hs : 0 < s.ev.esw
  · simp only [hs, true_and, if_true]
  · simp only [hs, false_and, if_false]

/-- An evaluation changes the state by one of the two operations of R47, or not at all. -/
theorem State.transitions_change {theta : Option Int} {s : State} (h : (s.transitions theta).det.state ≠ s.det.state) :
    (∃ st, st ≠ .fire ∧ s.transitions theta = s.changeState st) ∨ ∃ c, s.transitions theta = s.enterFireState c := by
  by_cases hfire : s.det.state = .fire
  · exact absurd (congrArg (fun t : State => t.det.state) (State.transitions_of_fire theta hfire)) h
  by_cases hhot : ∃ th, theta = some th ∧ (s.cfg.heatLimit : Int) ≤ th
  · exact .inr ⟨_, State.transitions_of_hot hfire hhot⟩
  have hcool : ∀ th ∈ theta, th < (s.cfg.heatLimit : Int) := fun th hth => Int.not_le.1 (fun hle => hhot ⟨th, hth, hle⟩)
  obtain ⟨quiet, watch, verify⟩ := State.transitions_of_cool hcool
  cases hs : s.det.state with
  | fire => exact absurd hs hfire
  | quiet =>
    rw [quiet hs] at h ⊢
    split at h
    · rename_i hw
      exact .inl ⟨.watch, nofun, if_pos hw⟩
    · exact absurd rfl h
  | watch =>
    rw [watch hs] at h ⊢
    by_cases ha : s.levels.alarm ≤ s.ev.e
    · exact .inl ⟨.verify, nofun, State.watchRule_rises ha⟩
    by_cases hf : s.ev.e < s.levels.watch - 50 ∧ 2 ≤ s.det.hyst
    · exact .inl ⟨.quiet, nofun, State.watchRule_falls (Nat.not_le.1 ha) hf.1 hf.2⟩
    · rw [State.watchRule_stays (Nat.not_le.1 ha) hf] at h
      exact absurd rfl h
  | verify =>
    rw [verify hs] at h ⊢
    by_cases hv : s.verifyCounts.verifyFires = true
    · exact .inr ⟨_, State.verifyRule_fires hv⟩
    by_cases hf : s.ev.e < s.levels.alarm - 50 ∧ 2 ≤ s.det.hyst
    · exact .inl ⟨.watch, nofun, State.verifyRule_falls hv hf.1 hf.2⟩
    · rw [State.verifyRule_stays hv hf] at h
      exact absurd rfl h

end Sys2Proof.Machine
end

section
/-! SUPPORT. The OBSERVATION that a change of state asks for (R47, R60); then the obligation on the transitions. -/
namespace Sys2Proof.Machine

/-! ## The OBSERVATION of a change of state -/

theorem State.panelRecord_keeps (type : RecordType) (origin : Addr) (zone code detail : Byte) (s : State) :
    (s.panelRecord type origin zone code detail).pool = s.pool ∧
      (s.panelRecord type origin zone code detail).tu = s.tu := by
  unfold State.panelRecord
  split <;> exact ⟨rfl, rfl⟩

theorem State.enterFire_keeps (o : Addr) (z c : Byte) (s : State) :
    (s.enterFire o z c).pool = s.pool ∧ (s.enterFire o z c).tu = s.tu := by
  unfold State.enterFire
  dsimp only
  split
  · exact ⟨rfl, rfl⟩
  · split
    · exact State.panelRecord_keeps _ _ _ _ _ _
    · exact ⟨rfl, rfl⟩

theorem State.restartObservation_keeps (s : State) :
    s.restartObservation.pool = s.pool ∧ s.restartObservation.tu = s.tu := by
  unfold State.restartObservation State.startObservationAt State.observationDrawn
  split <;> exact ⟨rfl, rfl⟩

theorem State.announceState_eq (s : State) : s.announceState = s.restartObservation.requestObservation := rfl

/-- A new state leaves pool and transmit unit, or leaves them as the pending profile's OBSERVATION does (R55). -/
theorem State.enterState_transmit (st : DetState) (s : State) :
    ((s.enterState st).pool = s.pool ∧ (s.enterState st).tu = s.tu) ∨
    ∃ d, (s.enterState st).pool = ({ s with det := d } : State).requestObservation.pool ∧
      (s.enterState st).tu = ({ s with det := d } : State).requestObservation.tu := by
  unfold State.enterState
  split
  · cases hp : (s.setDetState st).det.pendingProfile with
    | none =>
      rw [State.takePending_of_none hp]
      exact .inl ⟨rfl, rfl⟩
    | some p =>
      rw [State.takePending_of_some hp]
      exact .inr ⟨_, State.panelRecord_keeps _ _ _ _ _ _⟩
  · exact .inl ⟨rfl, rfl⟩

theorem State.enterState_observationReady {s : State} (st : DetState) (h : s.ObservationReady) :
    (s.enterState st).ObservationReady := by
  rcases State.enterState_transmit st s with ⟨hp, ht⟩ | ⟨d, hp, ht⟩
  · exact (State.observationReady_congr hp ht).2 h
  · refine (State.observationReady_congr hp ht).2 (.inl (State.requestObservation_inFlight ?_))
    exact (State.observationReady_congr rfl rfl).2 h

theorem State.enterState_of_cannot {s : State} (st : DetState) (h : ¬ s.CanOriginate .routine) :
    (s.enterState st).pool = s.pool ∧ (s.enterState st).tu = s.tu := by
  rcases State.enterState_transmit st s with same | ⟨d, hp, ht⟩
  · exact same
  · have hskip := State.requestObservation_of_cannot (s := { s with det := d })
      (fun hc => h ((State.canOriginate_congr rfl rfl).1 hc))
    rw [hp, ht, hskip]
    exact ⟨rfl, rfl⟩

theorem State.announceState_inFlight {s : State} (h : s.ObservationReady) :
    s.announceState.ownInFlight kindObservation = true := by
  obtain ⟨hp, ht⟩ := State.restartObservation_keeps s
  exact State.requestObservation_inFlight ((State.observationReady_congr hp ht).2 h)

theorem State.announceState_of_cannot {s : State} (h : ¬ s.CanOriginate .routine) :
    s.announceState.pool = s.pool ∧ s.announceState.tu = s.tu := by
  obtain ⟨hp, ht⟩ := State.restartObservation_keeps s
  rw [State.announceState_eq, State.requestObservation_of_cannot (fun hc => h ((State.canOriginate_congr hp ht).1 hc))]
  exact ⟨hp, ht⟩

/-- A change of state to QUIET, WATCH or VERIFY brings an OBSERVATION where one can be made (R47, R60). -/
theorem State.changeState_inFlight {s : State} (st : DetState) (h : s.CanOriginate .routine) :
    (s.changeState st).ownInFlight kindObservation = true := by
  rw [State.changeState_eq]
  exact State.announceState_inFlight (State.enterState_observationReady st (.inr h))

/-- Where none can be made it is skipped (R138). -/
theorem State.changeState_of_cannot {s : State} (st : DetState) (h : ¬ s.CanOriginate .routine) :
    (s.changeState st).pool = s.pool ∧ (s.changeState st).tu = s.tu := by
  obtain ⟨hp, ht⟩ := State.enterState_of_cannot st h
  obtain ⟨hp', ht'⟩ := State.announceState_of_cannot (fun hc => h ((State.canOriginate_congr hp ht).1 hc))
  rw [State.changeState_eq]
  exact ⟨hp'.trans hp, ht'.trans ht⟩

/-- A declaration's FIRE keeps an OBSERVATION in flight. -/
theorem State.HoldsOwn.declare {s : State} (h : s.HoldsOwn kindObservation) (c : FireCause) :
    (s.declare c).HoldsOwn kindObservation := by
  refine State.HoldsOwn.askFire (h.carried ?_) _ _
  obtain ⟨hp, ht⟩ := State.enterFire_keeps s.cfg.address s.cfg.zone c.code { s with det := { s.det with
    cause := some c, evidence := some s.ev.e, refresh := s.after (seconds 30) } }
  exact .of_eq (by rw [hp]) (by rw [ht])

/-- With one buffer to spare a declaration's FIRE leaves its OBSERVATION possible. -/
theorem State.declare_observationReady {s : State} (hs : s.EntriesHeld) (hf : 4 ≤ s.pool.freeCount)
    (hc : s.CanOriginate .routine) (c : FireCause) : (s.declare c).ObservationReady := by
  obtain ⟨hp, ht⟩ := State.enterFire_keeps s.cfg.address s.cfg.zone c.code { s with det := { s.det with
    cause := some c, evidence := some s.ev.e, refresh := s.after (seconds 30) } }
  exact State.askFire_observationReady (hs.of_eq hp ht) (by rw [hp]; exact hf) ((State.canOriginate_congr hp ht).2 hc).2 _ _

/-- A change to FIRE brings its OBSERVATION beside the FIRE, with one buffer to spare (R47, R51). Either a pending profile
has brought one before the FIRE, or the FIRE leaves room for it. -/
theorem State.enterFireState_inFlight {s : State} (hs : s.EntriesHeld) (hf : 4 ≤ s.pool.freeCount)
    (hp : s.placeFree .routine = true) (c : FireCause) : (s.enterFireState c).ownInFlight kindObservation = true := by
  have can : s.CanOriginate .routine := ⟨decide_eq_true (Nat.le_trans (Nat.le_succ 3) hf), hp⟩
  rw [State.enterFireState_eq]
  refine State.announceState_inFlight ?_
  rcases State.enterState_transmit .fire s with ⟨hpool, htu⟩ | ⟨d, hpool, htu⟩
  · exact State.declare_observationReady (hs.of_eq hpool htu) (by rw [hpool]; exact hf)
      ((State.canOriginate_congr hpool htu).2 can) c
  · have asked : ({ s with det := d } : State).requestObservation.HoldsOwn kindObservation :=
      State.requestObservation_holds (hs.of_eq rfl rfl) ((State.canOriginate_congr rfl rfl).2 can)
    exact .inl ((asked.carried (.of_eq (by rw [hpool]) (by rw [htu]))).declare c).inFlight

/-! ## The obligation -/

/-- After a change of state the detection record is that of the state entered, the declaration's items and the observation
timer apart. -/
theorem State.transitions_change_det {theta : Option Int} {s : State}
    (h : (s.transitions theta).det.state ≠ s.det.state) : ∃ refresh cause evidence observation,
      (s.transitions theta).det = { s.det.entered (s.transitions theta).det.state s.now with
        refresh := refresh, cause := cause, evidence := evidence, observation := observation } := by
  rcases State.transitions_change h with ⟨st, _, ht⟩ | ⟨c, ht⟩
  · rw [ht, State.changeState_state, State.changeState_det]
    exact ⟨_, _, _, _, rfl⟩
  · rw [ht, State.enterFireState_state, State.enterFireState_det]
    exact ⟨_, _, _, _, rfl⟩

/-- Settles O22: the fixed-heat test, then the rules of the states case by case, then what the two operations of a change
bring. -/
theorem detectionTransitions : Obligations.DetectionTransitions := by
  unfold Obligations.DetectionTransitions
  refine ⟨fun theta s => ⟨?hot, fun hcool => ⟨?quiet, ?watch⟩, State.transitions_of_fire theta⟩, ?verify, ?change⟩
  case hot =>
    intro hs hth
    rw [State.transitions_of_hot hs hth]
    exact ⟨State.enterFireState_state _ s, (State.enterFireState_record _ s).2.2, (State.enterFireState_record _ s).2.1⟩
  case quiet =>
    intro hs
    rw [(State.transitions_of_cool hcool).1 hs]
    refine ⟨fun h => ?_, fun h => if_neg (Nat.not_le.2 h)⟩
    rw [if_pos h]
    exact ⟨State.changeState_state _ s, State.changeState_counts _ s⟩
  case watch =>
    intro hs
    rw [(State.transitions_of_cool hcool).2.1 hs]
    refine ⟨fun h => ?rises, fun ha hw => ?zeroed, fun ha hw hc => ?counted, fun ha hw hc => ?falls⟩
    case rises =>
      rw [State.watchRule_rises h, State.changeState_verifyStart]
      exact ⟨State.changeState_state _ s, if_pos rfl, State.changeState_counts _ s⟩
    case zeroed => rw [State.watchRule_stays ha (by omega), hystAfter, if_neg (by omega)]
    case counted => rw [State.watchRule_stays ha (by omega), hystAfter, if_pos hw]
    case falls =>
      rw [State.watchRule_falls ha hw hc]
      exact ⟨State.changeState_state _ s, (State.changeState_counts _ s).1⟩
  case verify =>
    intro theta s hs hcool c fires falls
    have hfires : s.verifyCounts.verifyFires = true ↔ fires := State.verifyFires_verifyCounts s
    rw [(State.transitions_of_cool hcool).2.2 hs]
    refine ⟨fun hf => ?fires, fun hf he hc => ?falls, fun hf => State.verifyRule_stays (mt hfires.1 hf)⟩
    case fires =>
      obtain ⟨hstart, hev, hcause⟩ := State.enterFireState_record s.verifyCause s
      rw [State.verifyRule_fires (hfires.2 hf)]
      exact ⟨State.enterFireState_state _ s, hstart, hev, by rw [hcause, State.verifyCause_eq]⟩
    case falls =>
      rw [State.verifyRule_falls (mt hfires.1 hf) he hc, State.changeState_verifyStart]
      exact ⟨State.changeState_state _ s, if_neg nofun, State.changeState_counts _ s⟩
  case change =>
    intro theta s t pending hne
    have hchange : (∃ st, st ≠ .fire ∧ t = s.changeState st) ∨ ∃ c, t = s.enterFireState c := State.transitions_change hne
    have hentered : ∃ refresh cause evidence observation, t.det = { s.det.entered t.det.state s.now with
      refresh := refresh, cause := cause, evidence := evidence, observation := observation } :=
      State.transitions_change_det hne
    clear_value t
    obtain ⟨_, _, _, _, hdet⟩ := hentered
    have record : t.det.hyst = 0 ∧ t.det.sat = 0 ∧
        t.det.verifyStart = (if t.det.state = .verify then some (s.now / 1000) else none) := by
      rw [hdet]
      simp
    have taken : ∀ p, s.det.state = .verify → s.det.pendingProfile = some p → t.det.profile = p ∧
        t.det.pendingProfile = none ∧ t.det.serviceLimit = (if p = .service then some (s.now + 14400000000) else none) := by
      rw [hdet]
      exact fun p => Detection.entered_profile_of_pending _ s.now
    have kept : ¬ pending → t.det.profile = s.det.profile ∧ t.det.pendingProfile = s.det.pendingProfile ∧
        t.det.serviceLimit = s.det.serviceLimit := by
      rw [hdet]
      exact Detection.entered_profile_of_not_pending _ s.now
    obtain ⟨hhyst, hsat, hstart⟩ := record
    refine ⟨hhyst, hsat, hstart, ?_⟩
    clear hdet hhyst hsat hstart
    rcases hchange with ⟨st, hst, rfl⟩ | ⟨c, rfl⟩
    · have hstate := State.changeState_state st s
      have notFire : (s.changeState st).det.state ≠ .fire := fun h => hst (hstate.symm.trans h)
      refine ⟨fun h => State.changeState_observation_of_ne_quiet s (fun hq => h (hstate.trans hq)), fun h => ?_,
        fun h => absurd h notFire, fun _ => ?_, taken, kept, fun _ => State.changeState_inFlight st,
        fun _ => State.changeState_of_cannot st, fun h => absurd h notFire⟩
      · obtain rfl : st = .quiet := hstate.symm.trans h
        exact State.changeState_observation_of_quiet s
      · rw [State.changeState_det]
        exact Detection.entered_keeps st s.now s.det
    · have isFire := State.enterFireState_state c s
      refine ⟨fun _ => ?_, fun h => absurd (isFire.symm.trans h) nofun, fun _ => ?_, fun h => absurd isFire h, taken, kept,
        fun h => absurd isFire h, fun h => absurd isFire h,
        fun _ hsound hfree hplace => State.enterFireState_inFlight hsound.entriesHeld hfree hplace c⟩
      · rw [State.enterFireState_det]
      · rw [State.enterFireState_det]

end Sys2Proof.Machine
end

section
/-! SUPPORT. The corroboration score (R48, R49): its terms in falling order, case by case; then the obligation on it. -/
namespace Sys2Proof.Machine

/-! ## Lists in falling order -/

/-- The largest first: the order in which the contributions stand. -/
def sortFalling : List Nat → List Nat := sortBy (fun a b => decide (b < a))

theorem contributions_eq_sortFalling (ms : Ms) (zone : Byte) (nt : List Neighbour) :
    contributions ms zone nt = sortFalling (nt.map (contribution ms zone)) := rfl

theorem sortFalling_perm (l : List Nat) : (sortFalling l).Perm l := sortBy_perm _ l

theorem insertBy_falling (x : Nat) {l : List Nat} (h : l.Pairwise (· ≥ ·)) :
    (insertBy (fun a b => decide (b < a)) x l).Pairwise (· ≥ ·) := by
  induction l with
  | nil => exact List.pairwise_singleton _ x
  | cons y ys ih =>
    obtain ⟨hy, hys⟩ := List.pairwise_cons.1 h
    unfold insertBy
    split
    · rename_i hxy
      refine List.pairwise_cons.2 ⟨fun z hz => ?_, ih hys⟩
      rcases List.mem_cons.1 ((insertBy_perm _ x ys).mem_iff.1 hz) with rfl | hz
      · exact Nat.le_of_lt (of_decide_eq_true hxy)
      · exact hy z hz
    · rename_i hxy
      have hyx : x ≥ y := Nat.le_of_not_lt (fun hlt => hxy (decide_eq_true hlt))
      exact List.pairwise_cons.2 ⟨List.forall_mem_cons.2 ⟨hyx, fun z hz => Nat.le_trans (hy z hz) hyx⟩, h⟩

theorem sortFalling_falling (l : List Nat) : (sortFalling l).Pairwise (· ≥ ·) := by
  induction l with
  | nil => exact .nil
  | cons x xs ih => exact insertBy_falling x ih

/-- Where no later figure exceeds one of the first, the two parts are sorted one by one. -/
theorem sortFalling_append_of_le {l top rest : List Nat} (hp : l.Perm (top ++ rest))
    (h : ∀ x ∈ top, ∀ y ∈ rest, y ≤ x) : sortFalling l = sortFalling top ++ sortFalling rest := by
  have sorted : (sortFalling top ++ sortFalling rest).Pairwise (· ≥ ·) :=
    List.pairwise_append.2 ⟨sortFalling_falling top, sortFalling_falling rest, fun x hx y hy =>
      h x ((sortFalling_perm top).mem_iff.1 hx) y ((sortFalling_perm rest).mem_iff.1 hy)⟩
  have perm : (sortFalling l).Perm (sortFalling top ++ sortFalling rest) :=
    (sortFalling_perm l).trans (hp.trans ((sortFalling_perm top).append (sortFalling_perm rest)).symm)
  exact perm.eq_of_pairwise (fun _ _ _ _ hab hba => Nat.le_antisymm hba hab) (sortFalling_falling l) sorted

/-! ## The contribution of an entry -/

theorem contribution_of_not_reporting {ms : Ms} {zone : Byte} {n : Neighbour}
    (h : n.status ≠ .live ∨ n.zone ≠ some zone ∨ n.report = none ∨ ∃ r, n.report = some r ∧ r.state = .quiet) :
    contribution ms zone n = 0 := by
  unfold contribution
  split
  · rename_i hl
    rcases h with h | h | h | ⟨r, h, hq⟩
    · exact absurd hl.1 h
    · exact absurd hl.2 h
    · rw [h]
    · rw [h]; exact if_pos hq
  · rfl

theorem contribution_of_reporting {ms : Ms} {zone : Byte} {n : Neighbour} {r : Report} (hl : n.status = .live)
    (hz : n.zone = some zone) (hr : n.report = some r) (hq : r.state ≠ .quiet) :
    contribution ms zone n = if ms - r.heardAt ≤ 4000 then r.e else if ms - r.heardAt ≤ 10000 then r.e / 2 else 0 := by
  rw [contribution, if_pos ⟨hl, hz⟩, hr]
  exact if_neg hq

/-! ## The score -/

/-- The three largest contributions, where they are named (R49). -/
theorem corroboration_of_three {ms : Ms} {zone : Byte} (e : Nat) {nt : List Neighbour} {a b c : Neighbour}
    {rest : List Neighbour} (hp : nt.Perm (a :: b :: c :: rest))
    (h : ∀ n ∈ rest, contribution ms zone n ≤ contribution ms zone a ∧ contribution ms zone n ≤ contribution ms zone b ∧
      contribution ms zone n ≤ contribution ms zone c) :
    corroboration ms zone e nt =
      min 4000 (e + (contribution ms zone a + contribution ms zone b + contribution ms zone c)) := by
  have top : ∀ x ∈ [a, b, c].map (contribution ms zone), ∀ y ∈ rest.map (contribution ms zone), y ≤ x := by
    intro x hx y hy
    obtain ⟨n, hn, rfl⟩ := List.mem_map.1 hy
    obtain ⟨ha, hb, hc⟩ := h n hn
    simp only [List.map_cons, List.map_nil, List.mem_cons, List.not_mem_nil, or_false] at hx
    rcases hx with rfl | rfl | rfl
    · exact ha
    · exact hb
    · exact hc
  have perm := sortFalling_perm ([a, b, c].map (contribution ms zone))
  rw [corroboration, contributions_eq_sortFalling, sortFalling_append_of_le (hp.map _) top,
    List.take_left' (i := 3) perm.length_eq, perm.sum_nat]
  simp [Nat.add_assoc]

/-- With fewer than three entries every contribution counts. -/
theorem corroboration_of_short {nt : List Neighbour} (ms : Ms) (zone : Byte) (e : Nat) (h : nt.length < 3) :
    corroboration ms zone e nt = min 4000 (e + (nt.map (contribution ms zone)).sum) := by
  have perm := sortFalling_perm (nt.map (contribution ms zone))
  have hlen : (contributions ms zone nt).length ≤ 3 := by
    rw [contributions_eq_sortFalling, perm.length_eq, List.length_map]; omega
  rw [corroboration, List.take_of_length_le hlen, contributions_eq_sortFalling, perm.sum_nat]

/-- With no contributing neighbour the score is the own evidence. -/
theorem corroboration_of_none {ms : Ms} {zone : Byte} {e : Nat} {nt : List Neighbour}
    (h : ∀ n ∈ nt, contribution ms zone n = 0) (he : e ≤ 1000) : corroboration ms zone e nt = e := by
  have hsum : ((contributions ms zone nt).take 3).sum = 0 := by
    refine List.sum_eq_zero_iff_forall_eq_nat.2 (fun x hx => ?_)
    obtain ⟨n, hn, rfl⟩ := List.mem_map.1 ((sortFalling_perm _).mem_iff.1 (List.mem_of_mem_take hx))
    exact h n hn
  rw [corroboration, hsum]
  omega

/-- Settles O23: the contribution by its cases, the score by the number of its terms, and condition 1 of VERIFY. -/
theorem corroborationScore : Obligations.CorroborationScore := by
  unfold Obligations.CorroborationScore
  refine ⟨fun ms zone n => ⟨contribution_of_not_reporting, fun r => contribution_of_reporting⟩,
    fun ms zone e nt => ⟨fun a b c rest => corroboration_of_three e, corroboration_of_short ms zone e,
      corroboration_of_none, Nat.min_le_left _ _⟩, ?declares⟩
  case declares =>
    intro theta s hs hcool contributing confirmed
    have fires : s.verifyCounts.verifyFires = true :=
      (State.verifyFires_verifyCounts s).2 (.inl ⟨confirmed, contributing⟩)
    rw [(State.transitions_of_cool hcool).2.2 hs, State.verifyRule_fires fires]
    exact State.enterFireState_state _ s

end Sys2Proof.Machine
end

section
/-! SUPPORT. The link average (R66): what the two operations that set it leave in an entry, and which way a frame moves it;
then the obligation on it. -/
namespace Sys2Proof.Machine

/-! ## The link average of an entry -/

@[simp] theorem Neighbour.report68_avg (ms : Ms) (o : Option (Byte × Nat × Byte)) (n : Neighbour) :
    (Neighbour.report68 ms o n).avg = n.avg := by
  unfold Neighbour.report68
  split
  · rfl
  · split <;> rfl

@[simp] theorem Neighbour.admitted_avg (now : Us) (ms limit : Ms) (p : SenderPart) :
    (Neighbour.admitted now ms limit p).avg = 4 * p.level := Neighbour.report68_avg _ _ _

@[simp] theorem Neighbour.heard_avg (now : Us) (ms limit : Ms) (p : SenderPart) (n : Neighbour) :
    (n.heard now ms limit p).avg = linkAverage n.avg p.level := Neighbour.report68_avg _ _ _

/-! ## Which way a frame moves it -/

/-- The model's quotient is the floor R66 asks for. -/
theorem linkAverage_eq_fdiv (avg level : Int) : linkAverage avg level = avg + (4 * level - avg).fdiv 8 := by
  rw [Int.fdiv_eq_ediv_of_nonneg _ (by decide)]
  rfl

/-- However slightly weaker the frame, the floor of the negative quotient is at most -1. -/
theorem linkAverage_falls {avg level : Int} (weaker : 4 * level < avg) : linkAverage avg level ≤ avg - 1 := by
  have quotient : (4 * level - avg) / 8 < 0 := Int.ediv_neg_of_neg_of_pos (by omega) (by decide)
  unfold linkAverage
  omega

/-- A rise needs a quotient of at least 1, which is a distance of at least 8. -/
theorem linkAverage_rises_iff (avg level : Int) : avg < linkAverage avg level ↔ avg + 8 ≤ 4 * level := by
  have quotient : 1 ≤ (4 * level - avg) / 8 ↔ 1 * 8 ≤ 4 * level - avg := Int.le_ediv_iff_mul_le (by decide)
  unfold linkAverage
  omega

/-- Settles O24: an entry's link average is 4 × level, then `linkAverage`, whose moves and range the rules above give. -/
theorem linkAverage_admitted_and_heard : Obligations.LinkAverage := by
  unfold Obligations.LinkAverage
  intro now ms limit p n
  rw [Neighbour.admitted_avg, Neighbour.heard_avg]
  exact ⟨rfl, linkAverage_eq_fdiv _ _, linkAverage_falls, linkAverage_rises_iff _ _,
    fun hl hl' ha ha' => linkAverage_range ⟨ha, ha'⟩ ⟨hl, hl'⟩⟩

end Sys2Proof.Machine
end

section
/-! SUPPORT. Every command but START_UP_RESET is one event (0.4.2): what the effect of each command keeps, drawn from the
laws of the operations; and the obligations that rest on it alone. -/
namespace Sys2Proof.Machine

/-! ## What the effect of a command keeps -/

/-- What every command's effect keeps, and what it keeps of FIRE and the listed fire origins, unless it brings another epoch
(R142, R153). A reset press held until a settle end is left out. -/
structure State.Effect (s t : State) : Prop where
  kept : s.Kept t
  latched : .resetPress ∉ s.su.held → s.Latched t ∨ t.fu.epoch ≠ s.fu.epoch

theorem State.Effect.of_both {s t : State} (h : s.Kept t ∧ s.Latched t) : s.Effect t := ⟨h.1, fun _ => .inl h.2⟩

theorem State.Effect.refl (s : State) : s.Effect s := .of_both ⟨.refl s, .refl s⟩

theorem State.Effect.of_or {s t : State} (h : s.Kept t) (k : s.Latched t ∨ t.fu.epoch ≠ s.fu.epoch) : s.Effect t :=
  ⟨h, fun _ => k⟩

/-- A command whose condition fails has no effect (log 3). -/
theorem State.Effect.ite {p : Prop} [Decidable p] {s t : State} (h : s.Effect t) : s.Effect (if p then t else s) := by
  split
  · exact h
  · exact .refl s

/-- The work of a wake event after a first change (R165). -/
theorem State.Effect.wake {s t : State} {w : HeldWork} (h : s.Kept t ∧ s.Latched t) (hw : w ≠ .resetPress) :
    s.Effect (t.wakeWork w) :=
  .of_both (State.both_trans h ⟨State.wakeWork_kept w t, State.wakeWork_latched w t hw⟩)

/-- The work of a timer that is no wake event after a first change (R169). -/
theorem State.Effect.timer {s t : State} {w : HeldWork} (h : s.Kept t ∧ s.Latched t) (hw : w ≠ .resetPress) :
    s.Effect (t.timerWork w) :=
  .of_both (State.both_trans h ⟨State.timerWork_kept w t, State.timerWork_latched w t hw⟩)

/-- A guard's expiry stops it, and its consequence is the work of a wake event (R168). -/
theorem State.Effect.guard {p : Prop} [Decidable p] (g : GuardName) (s : State) :
    s.Effect (if p then (s.stopGuard g).wakeWork (.guardExpired g) else s) :=
  .ite (.wake ⟨State.stopGuard_kept g s, State.stopGuard_latched g s⟩ nofun)

/-- A change of the detection record's timers alone. -/
theorem State.detTimers_both (refresh limit : Timer) (s : State) :
    s.Kept { s with det := { s.det with refresh := refresh, serviceLimit := limit } } ∧
      s.Latched { s with det := { s.det with refresh := refresh, serviceLimit := limit } } :=
  ⟨State.det_kept _ s (fun h => { h with }), { State.Listed.of_eq rfl rfl with fire := fun h => ⟨h, rfl, rfl⟩ }⟩

/-- The neighbour entries changed in place, their addresses kept. -/
theorem State.ntMap_both (f : Neighbour → Neighbour) (s : State) (h1 : ∀ n, (f n).addr = n.addr)
    (h2 : ∀ n : Neighbour, n.InRange → (f n).InRange) :
    s.Kept { s with nt := s.nt.map f } ∧ s.Latched { s with nt := s.nt.map f } :=
  ⟨State.ntMap_kept f s h1 h2, State.nt_latched _ s⟩

/-- An entry's hold or supervision expiry ended (R70, R75). -/
theorem State.endHold_both (a : Addr) (s : State) :
    s.Kept { s with nt := endHold a s.nt } ∧ s.Latched { s with nt := endHold a s.nt } :=
  State.ntMap_both _ s (fun n => by split <;> rfl) (fun n h => by
    split
    · exact { h with }
    · exact h)

theorem State.endSupervision_both (a : Addr) (s : State) :
    s.Kept { s with nt := endSupervision a s.nt } ∧ s.Latched { s with nt := endSupervision a s.nt } :=
  State.ntMap_both _ s (fun n => by split <;> rfl) (fun n h => by
    split
    · exact { h with }
    · exact h)

/-- A change of the supervision unit's timers alone. -/
theorem State.svTimers_both (stall failed health : Timer) (s : State) :
    s.Kept { s with sv := { s.sv with stall := stall, failed := failed, health := health } } ∧
      s.Latched { s with sv := { s.sv with stall := stall, failed := failed, health := health } } :=
  ⟨State.sv_kept _ s id, State.sv_latched _ s⟩

/-- A change of the schedule unit, the position standing. -/
theorem State.suTimers_both (su : Su) (s : State) (h : su.position = s.su.position) :
    s.Kept { s with su := su } ∧ s.Latched { s with su := su } :=
  ⟨State.su_kept su s (fun k => h ▸ k), State.su_latched su s⟩

/-- A change of the line unit, its lists and count standing. -/
theorem State.luTimers_both (lu : Lu) (s : State) (h1 : lu.records = s.lu.records) (h2 : lu.lost = s.lu.lost)
    (h3 : lu.remote = s.lu.remote) : s.Kept { s with lu := lu } ∧ s.Latched { s with lu := lu } :=
  ⟨State.lu_kept lu s (fun h => by rw [Lu.InRange, h1, h2, h3]; exact h) (fun h => by rw [h3]; exact h),
    State.lu_latched lu s⟩

/-- A change of the profile refresh timer alone. -/
theorem State.profileRefreshTimer_both (x : Timer) (s : State) :
    s.Kept { s with fu := { s.fu with profileRefresh := x } } ∧
      s.Latched { s with fu := { s.fu with profileRefresh := x } } :=
  ⟨State.fu_kept _ s id id id, State.profileRefreshTimer_latched x s⟩

/-- A change of the report retry timer alone. -/
theorem State.reportRetry_both (x : Timer) (s : State) :
    s.Kept { s with faults := { s.faults with retry := x } } ∧
      s.Latched { s with faults := { s.faults with retry := x } } :=
  (State.faults_frame { s.faults with retry := x } s (.of_eq rfl)).both

/-- The head record sent leaves room for the lost-count record (R195). -/
theorem State.recordSent_both (s : State) : s.Kept s.recordSent ∧ s.Latched s.recordSent := by
  refine ⟨State.lu_kept _ s (fun h => ⟨?_, by simp, h.2.2⟩) id, State.lu_latched _ s⟩
  have := h.1
  dsimp only
  split
  · rw [List.length_drop]; omega
  · rw [List.length_append, List.length_drop, List.length_singleton]; omega


/-- The start-up sequence begins (R185). -/
theorem State.released_both (s : State) (h : s.sc.inReset = true) : s.Kept s.released ∧ s.Latched s.released := by
  have sc : s.Kept { s with sc := { s.sc with
      inReset := false
      read := some { number := 1, serial := s.sc.attempts + 1, purpose := .startUp }
      attempts := s.sc.attempts + 1 } } :=
    State.sc_kept _ s id ⟨id, fun k => absurd (h.symm.trans k) nofun⟩
  exact State.both_trans (State.both_trans (State.both_trans ⟨sc, State.sc_latched _ s⟩
      (State.luTimers_both { s.lu with
        test := s.lu.test.edgeAfterReset s.now
        profileLine := s.lu.profileLine.edgeAfterReset s.now
        silenceLine := s.lu.silenceLine.edgeAfterReset s.now
        resetLine := s.lu.resetLine.edgeAfterReset s.now } _ rfl rfl rfl))
    ⟨State.startGuard_kept .configRead _ _, State.startGuard_latched .configRead _ _⟩) (State.ledChoose_both _)

/-- The level an input stands at is no part of what is kept (R192). -/
theorem State.inputChanged_effect (line : InputLine) (level : Bool) (s : State) : s.Effect (s.inputChanged line level) :=
  .of_or (State.inputChanged_kept line level s) ((State.inputChanged_latched line level s).imp_right (fun h => by
    rw [h]; exact fun k => by simp at k))

theorem State.Effect.after {s t u : State} (h : s.Kept t ∧ s.Latched t) (held : t.su.held = s.su.held) (k : t.Effect u) :
    s.Effect u :=
  ⟨h.1.trans k.kept, fun hr => (k.latched (held ▸ hr)).imp h.2.trans (fun ne => h.2.epoch ▸ ne)⟩

/-- Every command but START_UP_RESET is one event at its own time, with an effect that keeps what `State.Effect` says. -/
theorem exec_effect (c : Instr) (s : State) (hc : ∀ dt, c ≠ .startUpReset dt) :
    ∃ t, exec c s = .next (State.finish s t) ∧ (s.elapse c.dt).Effect t := by
  cases c with
  | startUpReset dt => exact absurd rfl (hc dt)
  | resetLineRelease dt =>
    refine ⟨_, rfl, ?_⟩
    dsimp only
    split
    · rename_i h; exact .of_both (State.released_both _ h)
    · exact .refl _
  | configReadAttemptEnd dt attempt bytes =>
    refine ⟨_, rfl, ?_⟩
    dsimp only
    split
    · rename_i r h
      refine .of_both (State.readEnded_both r bytes _ ?_)
      unfold State.readInProgress at h
      split at h
      · exact (Option.filter_eq_some_iff.1 h).1
      · cases h
    · exact .refl _
  | configReadGuardExpiry dt => exact ⟨_, rfl, .guard .configRead _⟩
  | restartCountWriteEnd dt => exact ⟨_, rfl, .ite (.of_both (State.writeEnded_both _))⟩
  | restartCountWriteGuardExpiry dt => exact ⟨_, rfl, .guard .restartWrite _⟩
  | learningLimitExpiry dt => exact ⟨_, rfl, .ite (.of_both (State.endStep3_both _))⟩
  | scanCompletion dt seq d i b t v =>
    refine ⟨_, rfl, ?_⟩
    dsimp only
    split
    · exact .ite (.of_both (State.scanCompleted_both _ d i b t v _))
    · exact .refl _
  | scanGuardExpiry dt => exact ⟨_, rfl, .guard .scan _⟩
  | heatTick dt =>
    exact ⟨_, rfl, .ite (.wake ⟨State.ev_kept _ _ (fun h => { h with }), State.ev_latched _ _⟩ nofun)⟩
  | refreshTimerExpiry dt => exact ⟨_, rfl, .ite (.wake (State.detTimers_both _ _ _) nofun)⟩
  | serviceLimitExpiry dt => exact ⟨_, rfl, .ite (.wake (State.detTimers_both _ _ _) nofun)⟩
  | observationTimerExpiry dt =>
    refine ⟨_, rfl, ?_⟩
    dsimp only
    split
    · exact .ite (.wake ⟨State.startObservationAt_kept _ _, State.startObservationAt_latched _ _⟩ nofun)
    · exact .refl _
  | holdTimerExpiry dt a =>
    refine ⟨_, rfl, ?_⟩
    dsimp only
    split
    · exact .ite (.wake (State.endHold_both a _) nofun)
    · exact .refl _
  | supervisionExpiry dt a =>
    refine ⟨_, rfl, ?_⟩
    dsimp only
    split
    · exact .ite (.wake (State.endSupervision_both a _) nofun)
    · exact .refl _
  | channelSampleEnd dt level => exact ⟨_, rfl, .ite (.of_both (State.sampleEnded_frame level _).both)⟩
  | preambleDetection dt => exact ⟨_, rfl, .ite (.of_both (State.enterReceiving_frame _).fault.both)⟩
  | delimiterFound dt level =>
    exact ⟨_, rfl, .ite (.of_both ⟨State.delimiter_kept level _, State.delimiter_latched level _⟩)⟩
  | delimiterWaitLimit dt =>
    exact ⟨_, rfl, .ite (.of_both ((State.count_frame .falseWake _).trans (State.releaseRx_frame _)).fault.both)⟩
  | levelLost dt =>
    exact ⟨_, rfl, .ite (.of_both ((State.count_frame .falseWake _).trans (State.releaseRx_frame _)).fault.both)⟩
  | kindByteArrival dt b0 b1 kind =>
    refine ⟨_, rfl, ?_⟩
    dsimp only
    split
    · rename_i r hr; exact .ite (.of_both (State.kindByte_frame _ kind hr).fault.both)
    · exact .refl _
  | seventhHeaderByte dt flags a0 a1 len =>
    refine ⟨_, rfl, ?_⟩
    dsimp only
    split
    · rename_i r hr; exact .ite (.of_or (State.headerEnd_kept _ len hr) (State.headerEnd_latched _ len hr))
    · exact .refl _
  | frameEnd dt rest =>
    refine ⟨_, rfl, ?_⟩
    dsimp only
    split
    · rename_i r hr; exact .ite (.of_or (State.receptionEnd_kept rest hr) (State.receptionEnd_latched r rest _))
    · exact .refl _
  | carrierLostBeforeKind dt =>
    refine ⟨_, rfl, ?_⟩
    dsimp only
    split
    · exact .ite (.of_both (State.both_trans (State.count_frame .rxFormat _).fault.both
        ⟨State.discardEnded_kept _, State.discardEnded_latched _⟩))
    · exact .refl _
  | headerGuardExpiry dt => exact ⟨_, rfl, .guard .header _⟩
  | frameGuardExpiry dt => exact ⟨_, rfl, .guard .frame _⟩
  | calibrationCompletion dt begun =>
    refine ⟨_, rfl, .ite (.of_both ?_)⟩
    exact State.both_trans (State.both_trans (State.radio_frame { (s.elapse dt).radio with owner := .none } _ id).fault.both
      ⟨State.stopGuard_kept .calibration _, State.stopGuard_latched .calibration _⟩)
      ((State.takeUp_frame _).trans (State.select_frame _)).fault.both
  | calibrationGuardExpiry dt => exact ⟨_, rfl, .guard .calibration _⟩
  | backoffEnd dt => exact ⟨_, rfl, .ite (.wake (State.tu_frame _ _).fault.both nofun)⟩
  | assessmentEnd dt level =>
    refine ⟨_, rfl, .ite ?_⟩
    split
    · exact .of_both (State.enterPreamble_frame _).fault.both
    · exact .of_both (((State.stopAssessment_frame _).trans (State.releaseTu_frame _)).fault.trans
        (State.busyAssessment_frame _)).both
  | assessmentGuardExpiry dt => exact ⟨_, rfl, .guard .assessment _⟩
  | preambleEnd dt =>
    refine ⟨_, rfl, .ite ?_⟩
    split
    · exact .of_both (State.holdReturn_frame _).fault.both
    · split
      · exact .of_both (State.bodyStart_both _ _)
      · exact .refl _
  | bodyEnd dt =>
    refine ⟨_, rfl, ?_⟩
    dsimp only
    split
    · exact .ite (.of_both (State.bodyEnded_both _ _))
    · exact .refl _
  | bodyGuardExpiry dt => exact ⟨_, rfl, .guard .body _⟩
  | channelBlockedWatchExpiry dt =>
    refine ⟨_, rfl, ?_⟩
    dsimp only
    split
    · exact .ite (.timer (State.tu_frame _ _).fault.both nofun)
    · exact .refl _
    · exact .refl _
  | relayWaitEnd dt buf =>
    refine ⟨_, rfl, ?_⟩
    dsimp only
    split
    · exact .ite (.wake (State.endRelayWait_frame buf _).fault.both nofun)
    · exact .refl _
  | profileRefreshTimerExpiry dt =>
    refine ⟨_, rfl, .ite (.of_both ?_)⟩
    dsimp only
    exact State.both_trans
      (State.profileRefreshTimer_both (nextPeriod (s.elapse dt).fu.profileRefresh (seconds 1800)) (s.elapse dt))
      ⟨State.profileRefreshed_kept _, State.profileRefreshed_latched _⟩
  | entryBoundary dt => exact ⟨_, rfl, .ite (.wake (State.suTimers_both _ _ rfl) nofun)⟩
  | startUpWindowExpiry dt => exact ⟨_, rfl, .ite (.of_both (State.suTimers_both _ _ rfl))⟩
  | alertHoldExpiry dt =>
    refine ⟨_, rfl, ?_⟩
    dsimp only
    split
    · exact .ite (.of_both (State.suTimers_both _ _ rfl))
    · exact .refl _
    · exact .refl _
  | alertCommitmentExpiry dt => exact ⟨_, rfl, .ite (.of_both (State.suTimers_both _ _ rfl))⟩
  | scheduledLeave dt => exact ⟨_, rfl, .ite (.of_both (State.leaveDoze_both _))⟩
  | settleEnd dt =>
    exact ⟨_, rfl, .ite ⟨State.endSettle_kept _, fun h => .inl (State.endSettle_latched _ h)⟩⟩
  | stallTimerExpiry dt => exact ⟨_, rfl, .ite (.timer (State.svTimers_both _ _ _ _) nofun)⟩
  | failedTimerExpiry dt => exact ⟨_, rfl, .ite (.timer (State.svTimers_both _ _ _ _) nofun)⟩
  | reportRetryTimerExpiry dt =>
    exact ⟨_, rfl, .ite (.timer (State.reportRetry_both _ _) nofun)⟩
  | healthTimerExpiry dt => exact ⟨_, rfl, .ite (.wake (State.svTimers_both _ _ _ _) nofun)⟩
  | inputEdge dt line =>
    refine ⟨_, rfl, ?_⟩
    dsimp only
    split
    · exact .of_both (State.both_trans (State.setInput_both line _ _) (State.leaveDoze_both _))
    · exact .of_both (State.setInput_both line _ _)
  | debounceEnd dt line =>
    refine ⟨_, rfl, .ite ?_⟩
    split
    · exact .of_both (State.setInput_both line _ _)
    · dsimp only
      split
      · exact .after (State.setInput_both line _ _) rfl (State.inputChanged_effect line _ _)
      · exact .of_both (State.setInput_both line _ _)
  | longPress dt => exact ⟨_, rfl, .ite (.timer (State.luTimers_both _ _ rfl rfl rfl) nofun)⟩
  | ledPeriodStart dt =>
    refine ⟨_, rfl, .ite (.of_both ?_)⟩
    unfold State.ledPeriod
    split
    · exact State.luTimers_both _ _ rfl rfl rfl
    · exact ⟨.refl _, .refl _⟩
  | statePatternEnd dt => exact ⟨_, rfl, .ite (.of_both (State.luTimers_both _ _ rfl rfl rfl))⟩
  | statusRecordSent dt => exact ⟨_, rfl, .ite (.of_both (State.recordSent_both _))⟩

/-! ## Every command, every step -/

/-- Station time passing keeps the figures, the keys and the record in force. -/
theorem State.elapse_ranges {dt : Us} {s : State} (h : s.InRange) : (s.elapse dt).InRange := { h with }

theorem State.elapse_keys {dt : Us} {s : State} (h : s.TablesKeyed) : (s.elapse dt).TablesKeyed := { h with }

/-- A step is the front command's `exec`, or idling. -/
theorem step_cases {s t : State} (h : step s = .next t) :
    t = s ∨ ∃ c rest, s.pending = c :: rest ∧ exec c (s.withPending rest) = .next t := by
  unfold step at h
  split at h
  · exact .inl (Host.Outcome.next.inj h).symm
  · rename_i c rest hp
    exact .inr ⟨c, rest, hp, h⟩

/-- A command is START_UP_RESET, which answers the reset state, or an event. -/
theorem exec_cases {c : Instr} {s t : State} (h : exec c s = .next t) :
    (∃ dt, c = .startUpReset dt ∧ t = State.afterReset (s.now + dt) s.draws s.pending s.lu.test.raw
        s.lu.profileLine.raw s.lu.silenceLine.raw s.lu.resetLine.raw s.sc.written) ∨
      ∃ u, t = State.finish s u ∧ (s.elapse c.dt).Effect u := by
  by_cases hc : ∃ dt, c = .startUpReset dt
  · obtain ⟨dt, rfl⟩ := hc
    exact .inl ⟨dt, rfl, (Host.Outcome.next.inj h).symm⟩
  · obtain ⟨u, hu, he⟩ := exec_effect c s (fun dt k => hc ⟨dt, k⟩)
    exact .inr ⟨u, Host.Outcome.next.inj (h.symm.trans hu), he⟩

/-- What a property of states needs to be kept by every step: what follows every event, an elapse and the queue do not touch
it, reset has it, and the commands' effects keep it. -/
theorem step_keeps {P : State → Prop} (hq : ∀ {s : State} {q}, P s → P (s.withPending q))
    (hr : ∀ now draws q a b c d w, P (State.afterReset now draws q a b c d w))
    (he : ∀ {c : Instr} {s u : State}, P s → (s.elapse c.dt).Effect u → P (State.finish s u))
    {s t : State} (hs : P s) (h : step s = .next t) : P t := by
  rcases step_cases h with rfl | ⟨c, rest, _, hx⟩
  · exact hs
  · rcases exec_cases hx with ⟨dt, rfl, rfl⟩ | ⟨u, rfl, hu⟩
    · exact hr ..
    · exact he (hq hs) hu

theorem State.afterReset_keyed (now : Us) (draws : Nat) (q : List Instr) (a b c d : Bool) (w : Option (List Byte)) :
    (State.afterReset now draws q a b c d w).TablesKeyed :=
  ⟨.nil, .nil, .nil, .nil, .nil⟩

theorem State.afterReset_inRange (now : Us) (draws : Nat) (q : List Instr) (a b c d : Bool) (w : Option (List Byte)) :
    (State.afterReset now draws q a b c d w).InRange where
  ev := by constructor <;> simp [State.afterReset, Evidence.initial]
  det := by constructor <;> simp [State.afterReset, Detection.initial]
  radio := nofun
  table := Nat.zero_le _
  entries := nofun
  smokeRun := ⟨Nat.zero_le _, Nat.zero_le _⟩
  heatRun := ⟨Nat.zero_le _, Nat.zero_le _⟩
  sv := ⟨Nat.zero_le _, Nat.zero_le _, Nat.zero_le _, Nat.zero_le _⟩
  lu := ⟨Nat.zero_le _, Nat.zero_le _, Nat.zero_le _⟩
  counters := CountersInRange.initial
  faults := Nat.zero_le _
  fires := Nat.zero_le _
  position := Nat.zero_le _
  learnCount := Nat.zero_le _

/-- Every step keeps the figures in range (R18, R37, R63, R172, R182). -/
theorem step_keeps_inRange {s t : State} (hs : s.InRange) (h : step s = .next t) : t.InRange :=
  step_keeps (P := State.InRange) (fun h => { h with }) State.afterReset_inRange
    (fun hs hu => (State.finish_both _ _).1.ranges (hu.kept.ranges (State.elapse_ranges hs))) hs h

/-- Settles O60, by the keys that every command's effect keeps. -/
theorem tablesKeyedKept : Obligations.TablesKeyedKept := fun _ _ =>
  step_keeps (P := State.TablesKeyed) (fun h => { h with }) State.afterReset_keyed
    (fun hs hu => (State.finish_both _ _).1.keys (hu.kept.keys (State.elapse_keys hs)))

/-- Settles O58: the lines follow their conditions after every event, and after reset. -/
theorem linesFollowKept : Obligations.LinesFollowKept := fun _ _ =>
  step_keeps (P := State.LinesFollow) (fun h => h)
    (fun _ _ _ _ _ _ _ _ => ⟨rfl, rfl, rfl⟩)
    (fun _ _ => State.finish_linesFollow _ _)

/-- Settles O1: `step` is defined by the front of the queue. -/
theorem stepTakesTheFront : Obligations.StepTakesTheFront := by
  intro c rest s h
  unfold step
  rw [h]
  rfl

/-- Settles O2: an event adds the command's time to the clock, and its effect leaves clock and queue. -/
theorem everyCommandCompletes : Obligations.EveryCommandCompletes := by
  intro c s
  by_cases hc : ∃ dt, c = .startUpReset dt
  · obtain ⟨dt, rfl⟩ := hc
    exact ⟨_, rfl, rfl, rfl⟩
  · obtain ⟨u, hu, he⟩ := exec_effect c s (fun dt k => hc ⟨dt, k⟩)
    exact ⟨_, hu, by rw [State.finish_now]; exact he.kept.now, by rw [State.finish_pending]; exact he.kept.pending⟩

/-- Settles O12, by what every effect leaves of the start-up controller (R187, R188). -/
theorem configurationAndInertKept : Obligations.ConfigurationAndInertKept := by
  have stays : ∀ {i : Instr} {s t : State}, exec i s = .next t → (∀ dt, i ≠ .startUpReset dt) → s.sc.Stays t.sc := by
    intro i s t h hi
    rcases exec_cases h with ⟨dt, rfl, _⟩ | ⟨u, rfl, hu⟩
    · exact absurd rfl (hi dt)
    · rw [State.finish_sc]
      exact hu.kept.sc
  refine ⟨fun i s t c h hi hc hr hd => ?_, fun i s t h hi => (stays h hi).inert⟩
  obtain ⟨config, rest⟩ := (stays h hi).config hr hd
  exact ⟨config.trans hc, rest⟩

/-- An event that leaves the epoch leaves what is latched. -/
theorem exec_latched {i : Instr} {s t : State} (h : exec i s = .next t) (hi : ∀ dt, i ≠ .startUpReset dt)
    (hr : .resetPress ∉ s.su.held) (he : t.fu.epoch = s.fu.epoch) : s.Latched t := by
  rcases exec_cases h with ⟨dt, rfl, _⟩ | ⟨u, rfl, hu⟩
  · exact absurd rfl (hi dt)
  · rcases hu.latched hr with hl | hn
    · have elapsed : s.Latched (s.elapse i.dt) := .of_eq rfl rfl rfl
      exact elapsed.trans (hl.trans (State.finish_both _ _).2)
    · exact absurd he (by rw [State.finish_fu]; exact hn)

/-- Settles O21: FIRE is latched over every event that leaves the epoch (R46, R58). -/
theorem fireLatched : Obligations.FireLatched := fun _ _ _ h hi hr hf he => (exec_latched h hi hr he).fire hf

end Sys2Proof.Machine
end

section
/-! SUPPORT. What every command does around its effect: the event, what follows it, and the work done at once with the
oscillator settled; and the obligations about reset and the configuration record. -/
namespace Sys2Proof.Machine

/-! ## One event -/

/-- An event whose effect is known. -/
theorem State.event_eq {dt : Us} {effect : State → State} {s u : State} (h : effect (s.elapse dt) = u) :
    s.event dt effect = .next (State.finish s u) := by rw [State.event, h]

/-- A timer whose time has come is due after the command's `dt`. -/
theorem State.due_of {s : State} {e : Us} (h : e ≤ s.now) : s.due (some e) = true := decide_eq_true h

/-- With the oscillator settled the work of a wake event is done at once (R165). -/
theorem State.wakeWork_of_settled {s : State} {w : HeldWork} (h : s.settled = true) : s.wakeWork w = s.perform w :=
  if_pos h

/-! ## What follows every event -/

/-- The LED's choice leaves every other block as it is. -/
theorem State.ledFollows_eq (fires : List FireOrigin) (o : Bool) (s : State) :
    s.ledFollows fires o = { s with lu := (s.ledFollows fires o).lu } := by
  unfold State.ledFollows State.ledChoose
  split
  · rfl
  · split <;> rfl

/-- What follows every event leaves the LED to the choice at a change of the fire origin list. -/
theorem State.finish_lu_led (s0 s : State) :
    (State.finish s0 s).lu.led = (s.ledFollows s0.fu.fires s0.fu.overflow).lu.led ∧
      (State.finish s0 s).lu.ledStart = (s.ledFollows s0.fu.fires s0.fu.overflow).lu.ledStart ∧
      (State.finish s0 s).lu.ledNext = (s.ledFollows s0.fu.fires s0.fu.overflow).lu.ledNext := by
  unfold State.finish State.enterDoze
  split <;> exact ⟨rfl, rfl, rfl⟩

/-- The LED stands where neither the list nor the flag changed, or the pattern shown is the choice. -/
theorem State.finish_led_same {s0 s : State}
    (h : (s.fu.fires = s0.fu.fires ∧ s.fu.overflow = s0.fu.overflow) ∨ s.ledChoice = s.lu.led) :
    (State.finish s0 s).lu.led = s.lu.led ∧ (State.finish s0 s).lu.ledStart = s.lu.ledStart ∧
      (State.finish s0 s).lu.ledNext = s.lu.ledNext := by
  have same : s.ledFollows s0.fu.fires s0.fu.overflow = s := by
    unfold State.ledFollows State.ledChoose
    split
    · rfl
    · rename_i change
      exact if_pos (h.resolve_left change)
  have := State.finish_lu_led s0 s
  rwa [same] at this

/-- Otherwise the choice begins its first period. -/
theorem State.finish_led_new {s0 s : State} (h : ¬ (s.fu.fires = s0.fu.fires ∧ s.fu.overflow = s0.fu.overflow))
    (new : s.ledChoice ≠ s.lu.led) :
    (State.finish s0 s).lu.led = s.ledChoice ∧ (State.finish s0 s).lu.ledStart = s.now ∧
      (State.finish s0 s).lu.ledNext = s.after s.ledChoice.period := by
  have shown : s.ledFollows s0.fu.fires s0.fu.overflow = s.showLed s.ledChoice := by
    rw [State.ledFollows, if_neg h, State.ledChoose, if_neg new]
  have := State.finish_lu_led s0 s
  rwa [shown] at this

/-- The LED stands where the event left the flood unit as it was. -/
theorem State.finish_lu_of_fires {s0 s : State} (h1 : s.fu.fires = s0.fu.fires) (h2 : s.fu.overflow = s0.fu.overflow) :
    (State.finish s0 s).lu.led = s.lu.led := (State.finish_led_same (.inl ⟨h1, h2⟩)).1

/-- A pattern's period in microseconds (R191); `ledChoice` never shows the LED off. -/
theorem State.ledChoice_period (s : State) : s.ledChoice.period =
    if s.ledChoice = .tripleFlash then 1000000 else if s.ledChoice = .slowFlash then 30000000 else 2000000 := by
  cases s.ledChoice <;> simp [LedPattern.period, seconds]

/-- The power state after an event (R164). -/
theorem State.finish_power (s0 s : State) : (State.finish s0 s).su.power =
    if s.su.power = .run ∧ s.mayDoze = true then .doze else s.su.power := by
  rw [State.finish, State.ledFollows_eq]
  unfold State.enterDoze
  change (if s.su.power = .run ∧ s.mayDoze = true then _ else _ : State).su.power = _
  split <;> rfl

/-- The conditions of 9.5, taken apart. -/
theorem State.mayDoze_iff (s : State) : s.mayDoze = true ↔
    s.su.list = .quiet ∧ s.mu.scan = none ∧ s.radio.rx = .off ∧ s.radio.owner ≠ .heldOff ∧
      (s.tu.phase = .idle ∨ s.tu.phase = .backoff ∧ s.tu.backoff ≠ none) ∧
      (∀ b, (s.buf b).state ≠ .dispatch) ∧ s.su.settleEnd = none ∧ s.sc.read = none ∧ s.sc.write = none ∧
      ∃ n, s.su.nextBoundary = some n ∧ s.now + 500 * 2 ^ s.cfg.settleCode < n := by
  have bufs : (∀ x ∈ s.pool.bufs.toList, x.state ≠ .dispatch) ↔ ∀ b, (s.buf b).state ≠ .dispatch := by
    simp only [Vector.mem_toList_iff, Vector.mem_iff_getElem]
    exact ⟨fun h b => h _ ⟨b.1, b.2, rfl⟩, fun h x ⟨i, hi, hx⟩ => hx ▸ h ⟨i, hi⟩⟩
  simp only [State.mayDoze, State.tuWaits, Bool.and_eq_true, Bool.or_eq_true, decide_eq_true_eq, Option.isNone_iff_eq_none,
    List.all_eq_true, bufs, Option.isSome_iff_ne_none, Option.any_eq_true, and_assoc]
  exact Iff.rfl

/-- Settles O3: the LED's choice, the lines and the power state are the three steps of `State.finish`. -/
theorem whatFollowsEveryEvent : Obligations.WhatFollowsEveryEvent := by
  refine ⟨fun s0 s => ⟨State.finish_eq s0 s, State.finish_led_same, fun change new => ?_⟩, fun s0 s run => ?_⟩
  · obtain ⟨led, start, next⟩ := State.finish_led_new change new
    refine ⟨led, start, next.trans ?_⟩
    rw [State.after, State.ledChoice_period]
    rfl
  · rw [State.finish_power, run, ← State.mayDoze_iff]
    simp

/-- Settles O4: the values of `State.afterReset`, written out. -/
theorem startUpReset : Obligations.StartUpReset := fun _ _ => rfl

/-! ## The reset state -/

/-- Every buffer of the reset state is FREE and empty (R116). -/
theorem Pool.get_initial (b : Fin 8) : Pool.initial.get b = Buffer.empty := by
  rw [Pool.get, Pool.initial, Vector.getElem_replicate]

/-- The frame pool agrees with its holders after reset: there are none (R116). -/
theorem State.afterReset_poolSound (now : Us) (draws : Nat) (q : List Instr) (a b c d : Bool) (w : Option (List Byte)) :
    (State.afterReset now draws q a b c d w).PoolSound where
  onePlace := List.nodup_nil
  urgent := nofun
  routine := nofun
  current := nofun
  waits := nofun
  reception := nofun
  radio := ⟨fun h => by rcases h with h | h <;> exact absurd rfl h, fun h => absurd rfl h⟩
  free := fun b _ => Pool.get_initial b
  busy := by
    have : Pool.initial.freeCount = 8 := by simp [Pool.freeCount, Pool.get_initial, Buffer.empty]
    exact ⟨fun h => by rw [State.afterReset, this] at h; omega, fun _ => rfl⟩
  places := ⟨Nat.zero_le _, Nat.zero_le _⟩
  waiters := ⟨List.nodup_nil, nofun⟩
  pins := nofun
  seen := Nat.zero_le _
  seenKeyed := List.nodup_nil

/-- Settles O57: the reset state is `State.afterReset` at time 0. -/
theorem resetIsSound : Obligations.ResetIsSound :=
  ⟨⟨rfl, rfl, rfl⟩, State.afterReset_inRange .., State.afterReset_keyed .., State.afterReset_poolSound .., rfl, rfl⟩

/-- The LED's choice changes the LED alone. -/
theorem State.ledChoose_eq (s : State) : s.ledChoose = { s with lu := { s.lu with
    led := s.ledChoose.lu.led, ledStart := s.ledChoose.lu.ledStart, ledNext := s.ledChoose.lu.ledNext } } := by
  unfold State.ledChoose
  split <;> rfl

/-- A choice other than the pattern shown begins its first period. -/
theorem State.ledChoose_new {s : State} {p : LedPattern} (h : s.ledChoice = p) (new : p ≠ s.lu.led) :
    s.ledChoose = s.showLed p := by rw [State.ledChoose, h, if_neg new]

/-- A station without cause for another pattern shows the slow flash (R191). -/
theorem State.ledChoice_slow {s : State} (inert : s.sc.inert = false) (fires : s.fu.fires = [])
    (pattern : s.lu.statePattern = none) (state : s.det.state ≠ .verify)
    (faults : ∀ r ∈ s.faults.records, r.active = false) (loss : s.faults.storageLoss = false) :
    s.ledChoice = .slowFlash := by
  have quiet : s.faultIndication = false := by
    rw [State.faultIndication, loss, Bool.or_false, List.any_eq_false]
    exact fun r hr => by rw [faults r hr]; exact Bool.false_ne_true
  simp [State.ledChoice, inert, fires, pattern, state, quiet]

/-- A first period begun in the event stands after it. -/
theorem State.finish_ledChoose {s0 u : State} {p : LedPattern} (h1 : u.fu.fires = s0.fu.fires)
    (h2 : u.fu.overflow = s0.fu.overflow) (h : u.ledChoice = p) (new : p ≠ u.lu.led) :
    (State.finish s0 u.ledChoose).lu.led = p ∧ (State.finish s0 u.ledChoose).lu.ledStart = u.now ∧
      (State.finish s0 u.ledChoose).lu.ledNext = u.after p.period := by
  rw [State.ledChoose_new h new]
  exact State.finish_led_same (.inl ⟨h1, h2⟩)

/-- Settles O5: the effect of the release is `State.released`, whose LED choice alone depends on the other blocks. -/
theorem releaseBeginsTheRead : Obligations.ReleaseBeginsTheRead := by
  intro dt s reset
  have run : exec (.resetLineRelease dt) s = .next (State.finish s (s.elapse dt).released) :=
    State.event_eq (if_pos reset)
  refine ⟨_, run, ?_⟩
  have led : s.sc.inert = false → s.fu.fires = [] → s.lu.statePattern = none → s.det.state ≠ .verify →
      (∀ r ∈ s.faults.records, r.active = false) → s.faults.storageLoss = false → s.lu.led = .off →
      (State.finish s (s.elapse dt).released).lu.led = .slowFlash ∧
      (State.finish s (s.elapse dt).released).lu.ledStart = s.now + dt ∧
      (State.finish s (s.elapse dt).released).lu.ledNext = some (s.now + dt + 30000000) :=
    fun inert fires pattern state faults loss off =>
      State.finish_ledChoose rfl rfl (State.ledChoice_slow inert fires pattern state faults loss)
        (fun k => absurd (k.trans off) nofun)
  refine ⟨?_, ?_, ?_, ?_, ?_, ?_, led, ?_, ?_, ?_, ?_⟩
  all_goals
    rw [State.released, State.ledChoose_eq]
  case refine_7 => exact ⟨by simp, by simp, by simp, by simp, by simp, by simp, by simp, by simp⟩
  all_goals
    simp only [State.finish_sc, State.finish_guards, State.finish_lu_test, State.finish_lu_profileLine,
      State.finish_lu_silenceLine, State.finish_lu_resetLine, State.finish_tu, State.finish_pool, State.finish_radio]
    rfl

/-! ## The configuration record -/

theorem clamp_range {lo hi x : Nat} (h : lo ≤ hi) : lo ≤ clamp lo hi x ∧ clamp lo hi x ≤ hi := by
  unfold clamp
  omega

/-- A level set is within the ranges of R39. -/
theorem LevelSet.clamped_range (w a c v : Nat) : let l := LevelSet.clamped w a c v
    100 ≤ l.alarm ∧ l.alarm ≤ 1000 ∧ 50 ≤ l.watch ∧ l.watch ≤ l.alarm - 50 ∧
      l.alarm ≤ l.confirm ∧ l.confirm ≤ 4000 ∧ 10 ≤ l.verifyMax ∧ l.verifyMax ≤ 240 := by
  simp only [LevelSet.clamped, clamp]
  omega

/-- A role code names the role of that code (R186). -/
theorem Role.ofCode_eq_some {b : Byte} {r : Role} : Role.ofCode b = some r ↔ r.code = b.toNat := by
  unfold Role.ofCode
  generalize b.toNat = n
  rcases n with _ | _ | _ | _ | n <;> cases r <;> simp [Role.code]

/-- A role code names a role exactly when it is 0 to 3. -/
theorem Role.ofCode_isSome {b : Byte} : (Role.ofCode b).isSome ↔ b.toNat ≤ 3 := by
  unfold Role.ofCode
  generalize b.toNat = n
  rcases n with _ | _ | _ | _ | n <;> simp

theorem Record.word_lt (r : List Byte) (i : Nat) : Record.word r i < 65536 := BitVec.isLt _

/-- A word of the record is a valid address exactly when it is 1 to 0xFFFE (0.5.3). -/
theorem Record.word_valid (r : List Byte) (i : Nat) :
    Addr.valid (BitVec.ofNat 16 (Record.word r i)) = true ↔ 1 ≤ Record.word r i ∧ Record.word r i ≤ 0xFFFE := by
  have := Record.word_lt r i
  simp only [Addr.valid, Bool.and_eq_true, bne_iff_ne, ne_eq, ← BitVec.toNat_inj, BitVec.toNat_ofNat]
  rw [Nat.mod_eq_of_lt this, show BitVec.toNat (0 : Addr) = 0 from rfl, show BitVec.toNat (0xFFFF : Addr) = 65535 from rfl]
  omega

/-- Settles O7: the identity is checked, and every other figure is clamped. -/
theorem recordRanges : Obligations.RecordRanges := by
  intro bytes
  have identity : (Record.apply bytes).isSome ↔ (Role.ofCode (bytes.getD 5 0)).isSome ∧
      Addr.valid (BitVec.ofNat 16 (Record.word bytes 0)) = true ∧
      Addr.valid (BitVec.ofNat 16 (Record.word bytes 2)) = true := by
    unfold Record.apply
    cases Role.ofCode (bytes.getD 5 0) with
    | none => simp
    | some role => simp only [Option.isSome_some, true_and, ← Bool.and_eq_true]; split <;> simp [*]
  refine ⟨?_, fun c applied => ?_⟩
  · rw [identity, Role.ofCode_isSome, Record.word_valid, Record.word_valid]
    exact ⟨fun ⟨h, h0, h2⟩ => ⟨h0, h2, h⟩, fun ⟨h0, h2, h⟩ => ⟨h, h0, h2⟩⟩
  · have w0 := Record.word_lt bytes 0
    have w2 := Record.word_lt bytes 2
    unfold Record.apply at applied
    split at applied
    · cases applied
    · rename_i role named
      split at applied
      · cases applied
        refine ⟨by simpa using w0, by simpa using w2, rfl, Role.ofCode_eq_some.1 named, ?_⟩
        have level := LevelSet.clamped_range
        dsimp only at level
        simp only [List.forall_mem_cons, List.not_mem_nil, false_imp_iff, implies_true, and_true, decide_eq_true_eq,
          level, true_and]
        simp only [clamp]
        omega
      · cases applied


/-! ## The baselines -/

/-- Ibase after a tracking step, difference by difference (R23, R24). -/
theorem trackIbase_eq (corrected base : Nat) (h : base ≤ 12000) : trackIbase corrected base =
    if 16 * corrected < base then base - 1
    else if base < 16 * corrected ∧ 16 * corrected ≤ base + 256 ∧ base < 12000 then base + 1 else base := by
  simp only [trackIbase, trackBase]
  grind

/-- Bbase after a tracking step (R23). -/
theorem trackBase_eq (corrected base : Nat) : trackBase corrected base =
    if 16 * corrected < base then base - 1
    else if base < 16 * corrected ∧ 16 * corrected ≤ base + 256 then base + 1 else base := by
  simp only [trackBase]
  repeat' split
  all_goals omega

/-- CHAMBER is asked for exactly when tracking would pass 12000 (R24). -/
theorem trackRaises_iff (corrected base : Nat) (h : base ≤ 12000) : trackRaises corrected base = true ↔
    base = 12000 ∧ 12000 < 16 * corrected ∧ 16 * corrected ≤ 12256 := by
  rw [trackRaises, decide_eq_true_iff, trackBase_eq]
  grind

/-- Ibase stays at 12000 or below (R22, R24). -/
theorem Evidence.baselineStep_ibase (made : DetState) (part : Option SmokePart) (v : Evidence) (h : v.ibase ≤ 12000) :
    (v.baselineStep made part).2.ibase ≤ 12000 := by
  unfold Evidence.baselineStep
  split
  · split
    · split
      · dsimp only [Evidence.learnStep]
        split
        · exact h
        · exact Nat.min_le_left _ _
      · split
        · dsimp only
          rw [trackIbase_eq _ _ h]
          repeat' split
          all_goals omega
        · exact h
    · exact h
  · exact h

/-- Settles O15: an INVALID or absent part does nothing; a VALID one learns, tracks in QUIET, or does nothing. -/
theorem baselineStep : Obligations.BaselineStep := by
  refine ⟨fun made part v invalid => ?_, fun made p v valid ibase => ?_⟩
  · cases part with
    | none => rfl
    | some p => simp [Evidence.baselineStep, invalid p rfl]
  · refine ⟨v.baselineStep_ibase made (some p) ibase, fun learning state => ?_, fun learning state => ?_,
      fun learning count => ?_, fun learning count => ?_⟩
    · simp [Evidence.baselineStep, valid, learning, state]
    · simp only [Evidence.baselineStep, valid, learning, state, if_true, Bool.false_eq_true, if_false]
      exact ⟨trackIbase_eq _ _ ibase, trackBase_eq _ _, trackRaises_iff _ _ ibase⟩
    · have first : ¬ 8 ≤ v.learnCount + 1 := by omega
      have more : v.learnCount + 1 < 8 := by omega
      simp [Evidence.baselineStep, Evidence.learnStep, Evidence.learnRaises, valid, learning, first, more, darkCorrect]
    · simp [Evidence.baselineStep, Evidence.learnStep, Evidence.learnRaises, valid, learning, count, darkCorrect]

end Sys2Proof.Machine
end

section
/-! SUPPORT. Timers, the held work and the line unit's own commands (chapters 9 and 11). -/
namespace Sys2Proof.Machine

/-! ## Timers -/

/-- Settles O49: each expiry marks its timer alone. -/
theorem scheduleTimers : Obligations.ScheduleTimers := by
  refine ⟨fun dt e s due => ⟨fun timer => ?_, fun timer => ?_, fun timer => ?_⟩, fun dt b s doze boundary leave => ?_⟩
  · exact State.event_eq (if_pos (by rw [State.elapse_su, timer]; exact State.due_of due))
  · change execAlertHoldExpiry dt s = _
    refine State.event_eq ?_
    simp only [State.elapse_su, timer]
    exact if_pos due
  · exact State.event_eq (if_pos (by rw [State.elapse_su, timer]; exact State.due_of due))
  · refine State.event_eq ?_
    have met : (s.elapse dt).su.nextBoundary.any
        (fun b => decide (b ≤ (s.elapse dt).now + settleTime (s.elapse dt).cfg.settleCode)) = true := by
      rw [State.elapse_su, boundary]
      exact decide_eq_true (Nat.le_of_eq leave.symm)
    rw [if_pos met, State.leaveDoze, State.elapse_su, doze, ← leave]
    rfl

/-- Settles O50: the held work is folded over the state with the settle ended. -/
theorem settleEnd : Obligations.SettleEnd := by
  intro dt e s settle due
  have run : exec (.settleEnd dt) s = .next (State.finish s (s.elapse dt).endSettle) :=
    State.event_eq (if_pos (by rw [State.elapse_su, settle]; exact State.due_of due))
  refine ⟨_, run, rfl, fun none_held => ?_, fun th held candidate => ?_⟩
  · simp only [State.endSettle, State.elapse_su, none_held, List.foldl_nil, State.finish_mu, State.finish_ev,
      State.finish_tu, State.finish_fu, State.finish_su_held, State.finish_su_settleEnd]
    exact ⟨rfl, rfl, rfl, rfl, trivial, trivial⟩
  · simp only [State.endSettle, State.elapse_su, held, List.foldl_cons, List.foldl_nil, State.perform, State.heatPush,
      State.elapse_ev, candidate, State.finish_ev, State.finish_su_held, and_self]

/-! ## LED and status line -/

/-- A period's start shows the choice from the period's own start (R191). -/
theorem State.exec_ledPeriodStart {dt e : Us} {s : State} (next : s.lu.ledNext = some e) (due : e ≤ s.now + dt) :
    exec (.ledPeriodStart dt) s = .next (State.finish s { (s.elapse dt) with lu := { s.lu with
      led := (s.elapse dt).ledChoice, ledStart := e, ledNext := some (e + (s.elapse dt).ledChoice.period) } }) := by
  refine State.event_eq ?_
  rw [if_pos (by rw [State.elapse_lu, next]; exact State.due_of due), State.ledPeriod, State.elapse_lu, next]

/-- Settles O55: the period shows the choice, whose conditions exclude each other. -/
theorem ledPeriods : Obligations.LedPeriods := by
  intro dt e s due
  refine ⟨fun next => ⟨_, State.exec_ledPeriodStart next due, ?_⟩, fun pattern => ?_⟩
  · obtain ⟨led, start, period⟩ := State.finish_led_same (s0 := s) (s := { (s.elapse dt) with lu := { s.lu with
      led := (s.elapse dt).ledChoice, ledStart := e, ledNext := some (e + (s.elapse dt).ledChoice.period) } })
      (.inl ⟨rfl, rfl⟩)
    rw [led, start, period]
    have shown : ∀ p n, (s.elapse dt).ledChoice = p → p.period = n →
        (s.elapse dt).ledChoice = p ∧ some (e + (s.elapse dt).ledChoice.period) = some (e + n) := by
      rintro p n rfl rfl
      exact ⟨rfl, rfl⟩
    refine ⟨rfl, fun inert => ?_, fun inert fires => ?_, fun inert fires pattern state => ?_,
      fun inert fires pattern state faults => ?_, fun inert fires pattern state faults loss => ?_,
      fun p inert fires pattern running => ?_⟩
    · exact shown .tripleFlash _ (by simp [State.ledChoice, inert]) rfl
    · exact shown .steady _ (by simp [State.ledChoice, inert, fires]) rfl
    · exact shown .doubleFlash _ (by simp [State.ledChoice, inert, fires, pattern, state]) rfl
    · refine shown .singleFlash _ ?_ rfl
      have stands : (s.elapse dt).faultIndication = true := by
        rw [State.faultIndication, Bool.or_eq_true, List.any_eq_true]
        exact faults
      simp [State.ledChoice, inert, fires, pattern, state, stands]
    · exact shown .slowFlash _ (State.ledChoice_slow inert fires pattern state faults loss) rfl
    · exact shown (.statePattern _) _ (by simp [State.ledChoice, inert, fires, pattern, running]) rfl
  · exact State.event_eq (if_pos (by rw [State.elapse_lu, pattern]; exact State.due_of due))

/-- Settles O56: a record sent, and the four cases of a record offered. -/
theorem statusLine : Obligations.StatusLine := by
  refine ⟨fun dt e r rest s sending due records => ?_, fun r s => ⟨fun panel => ?_, fun panel room => ?_,
    fun panel full freed => ?_, fun panel full busy => ?_⟩⟩
  · refine State.event_eq ?_
    rw [if_pos (by rw [State.elapse_lu, sending]; exact State.due_of due), State.recordSent]
    simp only [State.elapse_lu, records, sending, List.drop_one, List.tail_cons, List.isEmpty_iff]
    rfl
  · rw [State.panelRecord, panel]
    rfl
  · rw [State.panelRecord, if_pos panel, State.queueRecord, Lu.offer, if_pos room]
    simp only [List.isEmpty_iff]
    rfl
  · rw [State.panelRecord, if_pos panel, State.queueRecord, Lu.offer, if_neg (by omega), if_pos freed]
    rfl
  · rw [State.panelRecord, if_pos panel, State.queueRecord, Lu.offer, if_neg (by omega), if_neg busy]

/-! ## Work done at once or held -/

/-- The work of a wake event: at once with the oscillator settled, and otherwise held, a dozing station's settle begun
(R165, R166). -/
theorem State.wakeWork_eq (w : HeldWork) (s : State) : s.wakeWork w =
    if s.su.power = .run ∧ s.su.settleEnd = none then s.perform w
    else { s with su := { s.su with
      power := .run
      settleEnd := if s.su.power = .doze then some (s.now + 500 * 2 ^ s.cfg.settleCode) else s.su.settleEnd
      held := s.su.held ++ [w] } } := by
  obtain ⟨now, draws, pending, mu, ev, det, nt, radio, pool, tu, fu,
    ⟨list, position, nextBoundary, startWindow, hold, commitment, power, settleEnd, held⟩, guards, faults, counters, sv, lu,
    sc⟩ := s
  cases power with
  | doze => rfl
  | run =>
    cases settleEnd with
    | none => rfl
    | some e => rfl

/-- The work of a timer that is no wake event: held in DOZE, done at once in RUN (R169, log 14). -/
theorem State.timerWork_eq (w : HeldWork) (s : State) : s.timerWork w =
    if s.su.power = .doze then { s with su := { s.su with held := s.su.held ++ [w] } } else s.perform w := by
  unfold State.timerWork
  cases s.su.power <;> rfl

/-- In a table with one entry per address, the entry of a held address. -/
theorem entryOf_of_mem {nt : List Neighbour} (keyed : (nt.map (·.addr)).Nodup) {n : Neighbour} (h : n ∈ nt) :
    entryOf n.addr nt = some n := by
  cases found : entryOf n.addr nt with
  | none => exact absurd (List.find?_eq_none.1 found n h) (by simp)
  | some m =>
    rw [eq_of_key_eq keyed (List.mem_of_find?_eq_some found) h (by simpa using List.find?_some found)]

/-- The ring keeps its newest eight (R32). -/
theorem ringPush_eq {ring : List Int} (h : ring.length ≤ 8) (th : Int) :
    ringPush ring th = (ring ++ [th]).drop (ring.length + 1 - 8) := by
  unfold ringPush
  split
  · rw [show ring.length + 1 - 8 = 0 by omega, List.drop_zero]
  · rw [show ring.length + 1 - 8 = 1 by omega, List.drop_append_of_le_length (by omega)]

/-- A wake event's work is done at once with the oscillator settled (R165). -/
theorem exec_settled {i : Instr} {w : HeldWork} {s x : State} (run : exec i s = .next (State.finish s (x.wakeWork w)))
    (settled : x.settled = true) : exec i s = .next (State.finish s (x.perform w)) := by
  rw [run, State.wakeWork_of_settled settled]

/-- The work of a timer that is no wake event is done at once in RUN (R169, log 14). -/
theorem exec_inRun {i : Instr} {w : HeldWork} {s x : State} (run : exec i s = .next (State.finish s (x.timerWork w)))
    (power : x.su.power = .run) : exec i s = .next (State.finish s (x.perform w)) := by
  rw [run, State.timerWork_eq, power]
  rfl

/-! ### Expiries -/

theorem exec_heatTick_due {dt e : Us} {s : State} (timer : s.ev.heatTick = some e) (due : e ≤ s.now + dt) :
    exec (.heatTick dt) s = .next (State.finish s (State.wakeWork .heatPush { s with now := s.now + dt, ev := { s.ev with heatTick := some (e + 8000000) } })) := by
  refine State.event_eq ?_
  rw [if_pos (by rw [State.elapse_ev, timer]; exact State.due_of due), State.elapse_ev, timer]
  rfl

theorem exec_entryBoundary_due {dt e : Us} {s : State} (timer : s.su.nextBoundary = some e) (due : e ≤ s.now + dt) :
    exec (.entryBoundary dt) s = .next (State.finish s (State.wakeWork .boundary { s with now := s.now + dt, su := { s.su with nextBoundary := some (e + 500000) } })) := by
  refine State.event_eq ?_
  rw [if_pos (by rw [State.elapse_su, timer]; exact State.due_of due), State.elapse_su, timer]
  rfl

theorem exec_refreshTimerExpiry_due {dt e : Us} {s : State} (timer : s.det.refresh = some e) (due : e ≤ s.now + dt) :
    exec (.refreshTimerExpiry dt) s = .next (State.finish s (State.wakeWork .refresh { s with now := s.now + dt, det := { s.det with refresh := some (e + 30000000) } })) := by
  refine State.event_eq ?_
  rw [if_pos (by rw [State.elapse_det, timer]; exact State.due_of due), State.elapse_det, timer]
  rfl

theorem exec_serviceLimitExpiry_due {dt e : Us} {s : State} (timer : s.det.serviceLimit = some e) (due : e ≤ s.now + dt) :
    exec (.serviceLimitExpiry dt) s = .next (State.finish s (State.wakeWork .serviceLimit { s with now := s.now + dt, det := { s.det with serviceLimit := none } })) := by
  refine State.event_eq ?_
  rw [if_pos (by rw [State.elapse_det, timer]; exact State.due_of due)]
  rfl

theorem exec_stallTimerExpiry_due {dt e : Us} {s : State} (timer : s.sv.stall = some e) (due : e ≤ s.now + dt) :
    exec (.stallTimerExpiry dt) s = .next (State.finish s (State.timerWork .stallEnded { s with now := s.now + dt, sv := { s.sv with stall := none } })) := by
  refine State.event_eq ?_
  rw [if_pos (by rw [State.elapse_sv, timer]; exact State.due_of due)]
  rfl

theorem exec_failedTimerExpiry_due {dt e : Us} {s : State} (timer : s.sv.failed = some e) (due : e ≤ s.now + dt) :
    exec (.failedTimerExpiry dt) s = .next (State.finish s (State.timerWork .failedEnded { s with now := s.now + dt, sv := { s.sv with failed := none } })) := by
  refine State.event_eq ?_
  rw [if_pos (by rw [State.elapse_sv, timer]; exact State.due_of due)]
  rfl

theorem exec_reportRetryTimerExpiry_due {dt e : Us} {s : State} (timer : s.faults.retry = some e) (due : e ≤ s.now + dt) :
    exec (.reportRetryTimerExpiry dt) s = .next (State.finish s (State.timerWork .reportRetry { s with now := s.now + dt, faults := { s.faults with retry := none } })) := by
  refine State.event_eq ?_
  rw [if_pos (by rw [State.elapse_faults, timer]; exact State.due_of due)]
  rfl

theorem exec_healthTimerExpiry_due {dt e : Us} {s : State} (timer : s.sv.health = some e) (due : e ≤ s.now + dt) :
    exec (.healthTimerExpiry dt) s = .next (State.finish s (State.wakeWork .health { s with
      now := s.now + dt, sv := { s.sv with health := some (e + s.cfg.healthPeriod * 3600000000) } })) := by
  refine State.event_eq ?_
  rw [if_pos (by rw [State.elapse_sv, timer]; exact State.due_of due), State.elapse_sv, timer]
  simp only [nextPeriod, Option.map_some, seconds]
  rw [show 3600 * (s.elapse dt).cfg.healthPeriod * 1000000 = s.cfg.healthPeriod * 3600000000 by
    change 3600 * s.cfg.healthPeriod * 1000000 = _; omega]
  rfl

theorem exec_backoffEnd_due {dt e : Us} {s : State} (phase : s.tu.phase = .backoff) (timer : s.tu.backoff = some e)
    (due : e ≤ s.now + dt) : exec (.backoffEnd dt) s = .next (State.finish s (State.wakeWork .backoffEnd { s with
      now := s.now + dt, tu := { s.tu with backoff := none } })) := by
  refine State.event_eq ?_
  rw [if_pos ⟨phase, by rw [State.elapse_tu, timer]; exact State.due_of due⟩]
  rfl

theorem exec_observationTimerExpiry_due {dt e : Us} {s : State} (timer : s.det.observation = some e)
    (due : e ≤ s.now + dt) : exec (.observationTimerExpiry dt) s =
      .next (State.finish s (State.wakeWork .observation ((s.elapse dt).startObservationAt e))) := by
  change execObservationTimerExpiry dt s = _
  refine State.event_eq ?_
  simp only [State.elapse_det, timer]
  exact if_pos due

theorem exec_relayWaitEnd_due {dt : Us} {b : Fin 8} {w : RelayWait} {s : State} (wait : s.relayWaitOf b = some w)
    (running : w.running = true) (ended : w.endsAt ≤ s.now + dt) : exec (.relayWaitEnd dt b) s =
      .next (State.finish s (State.wakeWork (.relayOffer b) (State.endRelayWait b (s.elapse dt)))) := by
  change execRelayWaitEnd dt b s = _
  refine State.event_eq ?_
  rw [show (s.elapse dt).relayWaitOf b = some w from wait]
  exact if_pos ⟨running, ended⟩

theorem exec_holdTimerExpiry_due {dt e : Us} {n : Neighbour} {s : State} (keyed : (s.nt.map (·.addr)).Nodup)
    (mem : n ∈ s.nt) (hold : n.hold = some e) (due : e ≤ s.now + dt) : exec (.holdTimerExpiry dt n.addr) s =
      .next (State.finish s (State.wakeWork .holdEnded { s with now := s.now + dt, nt := endHold n.addr s.nt })) := by
  change execHoldTimerExpiry dt n.addr s = _
  refine State.event_eq ?_
  rw [show entryOf n.addr (s.elapse dt).nt = some n from entryOf_of_mem keyed mem]
  exact if_pos (by rw [hold]; exact State.due_of due)

theorem exec_supervisionExpiry_due {dt : Us} {ms : Ms} {n : Neighbour} {s : State} (keyed : (s.nt.map (·.addr)).Nodup)
    (mem : n ∈ s.nt) (supervision : n.supervision = some ms) (due : ms ≤ (s.now + dt) / 1000) :
    exec (.supervisionExpiry dt n.addr) s = .next (State.finish s (State.wakeWork (.supervision n.addr) { s with
      now := s.now + dt, nt := endSupervision n.addr s.nt })) := by
  change execSupervisionExpiry dt n.addr s = _
  refine State.event_eq ?_
  rw [show entryOf n.addr (s.elapse dt).nt = some n from entryOf_of_mem keyed mem]
  exact if_pos (by rw [supervision]; exact decide_eq_true due)

/-- The command that brings a guard's expiry (R168). -/
def GuardName.expiry (dt : Us) : GuardName → Instr
  | .scan => .scanGuardExpiry dt
  | .header => .headerGuardExpiry dt
  | .frame => .frameGuardExpiry dt
  | .assessment => .assessmentGuardExpiry dt
  | .body => .bodyGuardExpiry dt
  | .calibration => .calibrationGuardExpiry dt
  | .configRead => .configReadGuardExpiry dt
  | .restartWrite => .restartCountWriteGuardExpiry dt

theorem exec_guardExpiry_due {dt e : Us} {g : GuardName} {s : State} (timer : s.guards.get g = some e)
    (due : e ≤ s.now + dt) : exec (g.expiry dt) s = .next (State.finish s (State.wakeWork (.guardExpired g) { s with
      now := s.now + dt, guards := s.guards.put g none })) := by
  have met : (s.elapse dt).due (s.guards.get g) = true := by rw [timer]; exact State.due_of due
  cases g <;> exact State.event_eq (if_pos met)

theorem exec_channelBlockedWatchExpiry_due {dt e : Us} {s : State} (watch : s.tu.watch = .running e)
    (due : e ≤ s.now + dt) : exec (.channelBlockedWatchExpiry dt) s =
      .next (State.finish s (State.timerWork .channelBlocked { s with
        now := s.now + dt, tu := { s.tu with watch := .expired } })) := by
  change execChannelBlockedWatchExpiry dt s = _
  refine State.event_eq ?_
  simp only [State.elapse_tu, watch]
  exact if_pos due

theorem exec_longPress_due {dt e : Us} {s : State} (press : s.lu.press = some e) (due : e ≤ s.now + dt)
    (level : s.lu.test.level = true) : exec (.longPress dt) s =
      .next (State.finish s (State.timerWork .longPress { s with
        now := s.now + dt, lu := { s.lu with press := none } })) := by
  refine State.event_eq ?_
  rw [if_pos ⟨by rw [State.elapse_lu, press]; exact State.due_of due, level⟩]
  rfl

/-- A debounce that ends with another level, once the station acts on its inputs (R192). -/
theorem exec_debounceEnd_due {dt e : Us} {line : InputLine} {s : State}
    (debounce : (s.lu.input line).debounce = some e) (due : e ≤ s.now + dt)
    (change : (s.lu.input line).raw ≠ (s.lu.input line).level) (acts : s.actsOnInputs = true) :
    exec (.debounceEnd dt line) s = .next (State.finish s (State.inputChanged line (s.lu.input line).raw
      ((s.elapse dt).setInput line { s.lu.input line with level := (s.lu.input line).raw, debounce := none }))) := by
  refine State.event_eq ?_
  have met : (s.elapse dt).due (s.lu.input line).debounce = true := by rw [debounce]; exact State.due_of due
  exact (if_pos met).trans ((if_neg change).trans (if_pos acts))

/-- A release before the press time has run out is a short press (R192). -/
theorem State.testChanged_release {s : State} {e : Us} (press : s.lu.press = some e) (early : s.now < e) :
    s.testChanged false = State.timerWork (.shortPress s.now) { s with lu := { s.lu with press := none } } := by
  simp only [State.testChanged, press]
  exact if_pos early

/-- Settles O17: the expiries, with `State.wakeWork_eq` and `State.timerWork_eq`. -/
theorem heatTickAndHeldWork : Obligations.HeatTickAndHeldWork := by
  refine ⟨fun dt e s tick due settled => ?_, fun dt e s due => ?_, fun dt e s due => ?_⟩
  · rw [exec_settled (exec_heatTick_due tick due) settled]
    refine ⟨fun th candidate length => ?_, fun candidate => ?_⟩
    · simp only [State.perform, State.heatPush, candidate, ringPush_eq length]
    · simp only [State.perform, State.heatPush, candidate]
  · refine ⟨fun timer => ?_, fun timer => ?_, fun phase timer => ?_, fun timer => ?_, fun timer => ?_,
      fun timer state => ?_, fun timer state => ?_, fun timer => ?_, fun b w wait running ended => ?_,
      fun n mem keyed hold => ?_, fun n mem ms keyed supervision fallen => ?_, fun g i guard timer => ?_⟩
    · rw [exec_heatTick_due timer due, State.wakeWork_eq]
      rfl
    · rw [exec_entryBoundary_due timer due, State.wakeWork_eq]
      rfl
    · rw [exec_backoffEnd_due phase timer due, State.wakeWork_eq]
      rfl
    · rw [exec_refreshTimerExpiry_due timer due, State.wakeWork_eq]
      rfl
    · rw [exec_serviceLimitExpiry_due timer due, State.wakeWork_eq]
      rfl
    · rw [exec_observationTimerExpiry_due timer due, State.wakeWork_eq]
      simp only [State.startObservationAt, State.observationTime, State.observationDrawn, State.elapse_det, state, if_false]
      rfl
    · refine ⟨s.drawOf 8, Nat.le_of_lt_succ (Nat.mod_lt _ (by decide)), ?_⟩
      rw [exec_observationTimerExpiry_due timer due, State.wakeWork_eq]
      simp only [State.startObservationAt, State.observationTime, State.observationDrawn, State.elapse_det, state, if_true]
      have time : e + (seconds (s.elapse dt).cfg.observationPeriod + seconds ((s.elapse dt).drawOf 8)) =
          e + (s.cfg.observationPeriod + s.drawOf 8) * 1000000 := by rw [Nat.add_mul]; rfl
      rw [time]
      rfl
    · rw [exec_healthTimerExpiry_due timer due, State.wakeWork_eq]
      rfl
    · rw [exec_relayWaitEnd_due wait running ended, State.wakeWork_eq]
      rfl
    · rw [exec_holdTimerExpiry_due keyed mem hold due, State.wakeWork_eq]
      rfl
    · rw [exec_supervisionExpiry_due keyed mem supervision fallen, State.wakeWork_eq]
      rfl
    · have command : i = g.expiry dt := by
        simp only [List.mem_cons, Prod.mk.injEq, List.not_mem_nil, or_false] at guard
        rcases guard with ⟨rfl, rfl⟩ | ⟨rfl, rfl⟩ | ⟨rfl, rfl⟩ | ⟨rfl, rfl⟩ | ⟨rfl, rfl⟩ | ⟨rfl, rfl⟩ | ⟨rfl, rfl⟩ |
          ⟨rfl, rfl⟩ <;> rfl
      rw [command, exec_guardExpiry_due timer due, State.wakeWork_eq]
      rfl
  · refine ⟨fun timer => ?_, fun timer => ?_, fun timer => ?_, fun timer => ?_, fun timer level => ?_,
      fun p debounce raw level press running learned inert => ?_⟩
    · rw [exec_stallTimerExpiry_due timer due, State.timerWork_eq]
    · rw [exec_failedTimerExpiry_due timer due, State.timerWork_eq]
    · rw [exec_reportRetryTimerExpiry_due timer due, State.timerWork_eq]
    · rw [exec_channelBlockedWatchExpiry_due timer due, State.timerWork_eq]
    · rw [exec_longPress_due timer due level, State.timerWork_eq]
    · have acts : s.actsOnInputs = true := by simp [State.actsOnInputs, learned, inert]
      rw [exec_debounceEnd_due (line := .test) debounce due (by rw [Lu.input, raw, level]; nofun) acts,
        State.inputChanged]
      simp only [Lu.input, raw]
      rw [State.testChanged_release (e := p), State.timerWork_eq]
      · rfl
      · exact press
      · exact running

end Sys2Proof.Machine
end

section
/-! SUPPORT. The radio: what the arbiter, the receive unit and the transmit unit do at their own events (chapters 6 and 7). -/
namespace Sys2Proof.Machine

/-! ## Finding and losing a frame (R103, R104, R108) -/

/-- The link level kept of a frame is the reported one within −127..0 (R104). -/
theorem level_clamped (level : Int) :
    max (-127) (min 0 level) = if level < -127 then -127 else if 0 < level then 0 else level := by
  omega

/-- Settles O27: the sample's two outcomes, each with and without a held request; the preamble and the delimiter. -/
theorem findingAFrame : Obligations.FindingAFrame := by
  refine ⟨fun dt e level s sampling timer due => ?_, fun dt level s => ⟨fun listening => ?_, fun waits => ?_⟩⟩
  · have run : exec (.channelSampleEnd dt level) s = .next (State.finish s ((s.elapse dt).sampleEnded level)) :=
      State.event_eq (if_pos ⟨sampling, by rw [State.elapse_radio, timer]; exact State.due_of due⟩)
    refine ⟨fun busy => ?_, fun quiet waiting => ?_, fun quiet waiting => ?_⟩
    · rw [run, State.sampleEnded, if_pos busy]
      rfl
    · rw [run, State.sampleEnded, if_neg (by omega)]
      exact congrArg (fun t => Host.Outcome.next (State.finish s t))
        (if_neg (by simp [State.elapse, waiting]))
    · rw [run, State.sampleEnded, if_neg (by omega)]
      exact congrArg (fun t => Host.Outcome.next (State.finish s t))
        (if_pos (by simp [State.elapse, waiting]))
  · exact State.event_eq (if_pos listening)
  · have run : exec (.delimiterFound dt level) s = .next (State.finish s ((s.elapse dt).delimiter level)) :=
      State.event_eq (if_pos (Option.isSome_iff_ne_none.2 waits))
    rw [run, State.delimiter, level_clamped]
    rfl

/-- Settles O28: a count and the release of the radio. -/
theorem receptionLost : Obligations.ReceptionLost := by
  refine ⟨fun dt e s waits timer => ⟨?_, fun due => ?_⟩, fun dt r s reception latch => ?_⟩
  · exact State.event_eq (if_pos (Option.isSome_iff_ne_none.2 waits))
  · exact State.event_eq (if_pos ⟨Option.isSome_iff_ne_none.2 waits, by
      rw [State.elapse_radio, timer]; exact State.due_of due⟩)
  · change execCarrierLostBeforeKind dt s = _
    refine State.event_eq ?_
    simp only [State.elapse_radio, reception]
    exact if_pos latch

/-! ## The end of a calibration (R115) -/

/-- Settles O35: a completion is taken exactly when its calibration is the one in progress. -/
theorem calibrationCompletion : Obligations.CalibrationCompletion := by
  refine fun dt begun s => ⟨fun off guard => ?_, fun other => ?_⟩
  · have current : (s.elapse dt).calibrating begun = true := by
      simp [State.calibrating, off, guard, millis]
    exact State.event_eq (if_pos current)
  · have late : ¬ (s.elapse dt).calibrating begun = true := by
      simp [State.calibrating, other, millis]
    exact State.event_eq (if_neg late)

/-! ## Selection (R119, R121) -/

/-- An IDLE transmit unit whose radio is not held off may select (R119). -/
def State.CanSelect (s : State) : Prop := s.tu.phase = .idle ∧ s.tu.current = none ∧ s.radio.owner ≠ .heldOff

theorem State.select_of_not {s : State} (h : ¬ s.CanSelect) : s.select = s := if_neg h

/-- The urgent head is selected first. -/
theorem State.select_urgent {s : State} {e : TxEntry} {rest : List TxEntry} (h : s.CanSelect)
    (urgent : s.tu.urgent = e :: rest) :
    s.select = State.takeEntry e { s with tu := { s.tu with urgent := rest } } := by
  rw [State.select, if_pos (show _ ∧ _ ∧ _ from h)]
  simp only [urgent]

/-- The routine head is selected when no urgent entry stands and no hold runs. -/
theorem State.select_routine {s : State} {e : TxEntry} {rest : List TxEntry} (h : s.CanSelect)
    (urgent : s.tu.urgent = []) (routine : s.tu.routine = e :: rest) (hold : holdRunning s.nt = false) :
    s.select = State.takeEntry e { s with tu := { s.tu with routine := rest } } := by
  rw [State.select, if_pos (show _ ∧ _ ∧ _ from h)]
  simp only [urgent, routine, hold, Bool.false_eq_true, if_false]

/-- With nothing to select, nothing changes. -/
theorem State.select_nothing {s : State} (urgent : s.tu.urgent = [])
    (routine : s.tu.routine = [] ∨ holdRunning s.nt = true) : s.select = s := by
  rw [State.select]
  split
  · simp only [urgent]
    split
    · rename_i e rest head
      rw [if_pos (routine.resolve_left (fun k => by rw [k] at head; cases head))]
    · rfl
  · rfl

/-- A hold runs exactly when some entry has one (R80). -/
theorem holdRunning_iff {nt : List Neighbour} : holdRunning nt = true ↔ ∃ n ∈ nt, n.hold ≠ none := by
  simp [holdRunning, Option.isSome_iff_ne_none]

theorem holdRunning_eq_false {nt : List Neighbour} : holdRunning nt = false ↔ ∀ n ∈ nt, n.hold = none := by
  simp [holdRunning]

/-- The buffers after an entry has become the frame in progress. -/
theorem State.takeEntry_buf (e : TxEntry) (c : Fin 8) (s : State) :
    (s.takeEntry e).buf c = if c = e.buf then { s.buf e.buf with state := .sending } else s.buf c :=
  State.buf_moveBuf _ _ _ _

/-- An urgent frame in progress backs off for 1 to 4 slots of 5 ms (R121). -/
theorem State.enterBackoff_urgent {s : State} (h : s.currentIs .urgent = true) :
    ∃ k : Nat, 1 ≤ k ∧ k ≤ 4 ∧ s.enterBackoff = { s with
      draws := s.draws + 1
      tu := { s.tu with phase := .backoff, waiting := false, backoff := some (s.now + k * 5000) } } := by
  refine ⟨1 + s.drawOf 4, by omega, ?_, ?_⟩
  · have : s.drawOf 4 < 4 := Nat.mod_lt _ (by decide)
    omega
  · rw [State.enterBackoff, if_pos h, Nat.mul_comm]
    rfl

/-- Any other frame in progress backs off for 1 to 16 slots of 10 ms (R121). -/
theorem State.enterBackoff_other {s : State} (h : s.currentIs .urgent = false) :
    ∃ k : Nat, 1 ≤ k ∧ k ≤ 16 ∧ s.enterBackoff = { s with
      draws := s.draws + 1
      tu := { s.tu with phase := .backoff, waiting := false, backoff := some (s.now + k * 10000) } } := by
  refine ⟨1 + s.drawOf 16, by omega, ?_, ?_⟩
  · have : s.drawOf 16 < 16 := Nat.mod_lt _ (by decide)
    omega
  · rw [State.enterBackoff, if_neg (by rw [h]; exact Bool.false_ne_true), Nat.mul_comm]
    rfl

/-- The class of the entry that becomes the frame in progress is the class of its buffer (R117). -/
theorem State.takeEntry_currentIs (c : FrameClass) (e : TxEntry) (s : State) :
    State.currentIs c ({ s with tu := { s.tu with current := some e } }.moveBuf e.buf .sending) =
      decide ((s.buf e.buf).cls = some c) := by
  rw [State.currentIs, State.currentClass]
  simp only [State.moveBuf_tu, Option.bind_some, State.buf_moveBuf, if_true]
  rfl

/-- The backoff of an urgent entry that becomes the frame in progress (R121). -/
theorem State.takeEntry_urgent {e : TxEntry} {s : State} (h : (s.buf e.buf).cls = some .urgent) :
    ∃ k : Nat, 1 ≤ k ∧ k ≤ 4 ∧ (s.takeEntry e).tu.backoff = some (s.now + 5000 * k) := by
  obtain ⟨k, low, high, eq⟩ := State.enterBackoff_urgent
    ((State.takeEntry_currentIs .urgent e s).trans (decide_eq_true h))
  exact ⟨k, low, high, by rw [State.takeEntry, eq, Nat.mul_comm]; rfl⟩

/-- The backoff of a routine entry that becomes the frame in progress (R121). -/
theorem State.takeEntry_routine {e : TxEntry} {s : State} (h : (s.buf e.buf).cls = some .routine) :
    ∃ k : Nat, 1 ≤ k ∧ k ≤ 16 ∧ (s.takeEntry e).tu.backoff = some (s.now + 10000 * k) := by
  obtain ⟨k, low, high, eq⟩ := State.enterBackoff_other
    ((State.takeEntry_currentIs .urgent e s).trans (decide_eq_false (by rw [h]; nofun)))
  exact ⟨k, low, high, by rw [State.takeEntry, eq, Nat.mul_comm]; rfl⟩

/-- Settles O36: the cases of `State.select`. -/
theorem selection : Obligations.Selection := by
  refine fun s => ⟨fun h => State.select_of_not ?_, fun idle none_current owner => ?_⟩
  · rintro ⟨h1, h2, h3⟩
    exact h.elim (· h1) (fun h => h.elim (· h2) h3)
  · have can : s.CanSelect := ⟨idle, none_current, owner⟩
    refine ⟨fun e rest urgent => ?_, fun e rest urgent routine hold => ?_, fun urgent nothing => ?_⟩
    · rw [State.select_urgent can urgent]
      exact ⟨rfl, rfl, rfl, rfl, by rw [State.takeEntry_buf, if_pos rfl], State.takeEntry_urgent⟩
    · rw [State.select_routine can urgent routine (holdRunning_eq_false.2 hold)]
      exact ⟨rfl, rfl, rfl, by rw [State.takeEntry_buf, if_pos rfl], State.takeEntry_routine⟩
    · exact State.select_nothing urgent (nothing.imp_right holdRunning_iff.2)

/-! ## The frame in progress leaves (R114, R117, R120, R126) -/

theorem State.currentIs_of {c : FrameClass} {e : TxEntry} {s : State} (h : s.tu.current = some e) :
    s.currentIs c = decide ((s.buf e.buf).cls = some c) := by
  rw [State.currentIs, State.currentClass, h]
  rfl

/-- An urgent frame in progress returns to the head of the urgent queue. -/
theorem State.returnCurrent_urgent {e : TxEntry} {s : State} (h : s.tu.current = some e)
    (c : (s.buf e.buf).cls = some .urgent) : s.returnCurrent =
      State.moveBuf e.buf .queued { s with tu := { s.tu with current := none, urgent := e :: s.tu.urgent } } := by
  simp only [State.returnCurrent, h, State.currentIs_of h, c, decide_true, if_true]
  rfl

/-- Any other frame in progress returns to the head of the routine queue. -/
theorem State.returnCurrent_other {e : TxEntry} {s : State} (h : s.tu.current = some e)
    (c : (s.buf e.buf).cls ≠ some .urgent) : s.returnCurrent =
      State.moveBuf e.buf .queued { s with tu := { s.tu with current := none, routine := e :: s.tu.routine } } := by
  simp only [State.returnCurrent, h, State.currentIs_of h, c, decide_false, Bool.false_eq_true, if_false]
  rfl

/-- The radio after the transmit unit has released it (R99, R102). -/
def State.radioReleased (s : State) : Radio :=
  if s.radio.owner = .tu then { s.radio with owner := .none, rx := if s.su.list = .alert then .listening else .off }
  else s.radio

theorem State.releaseTu_eq (s : State) : s.releaseTu = { s with radio := s.radioReleased } := by
  unfold State.releaseTu State.radioReleased
  split <;> rfl

theorem State.releaseTu_of {s : State} (h : s.radio.owner = .tu) : s.releaseTu = { s with radio := { s.radio with
    owner := .none, rx := if s.su.list = .alert then .listening else .off } } := by
  rw [State.releaseTu_eq, State.radioReleased, if_pos h]

/-- What stopping the operation of the frame in progress leaves (R126). -/
theorem State.stopOperation_eq (s : State) : s.stopOperation = { s with
    tu := { s.tu with phase := .idle, backoff := none, waiting := false, preambleEnd := none }
    guards := { s.guards with assessment := none }
    radio := s.radioReleased } := by
  rw [State.stopOperation, State.releaseTu_eq]
  rfl

/-! ### At a radio restart (R114) -/

/-- A third strike takes the frame out of the transmit unit. -/
theorem State.restartFrame_lost {strike : Bool} {e : TxEntry} {s : State} (h : s.tu.current = some e)
    (third : strike = true ∧ 2 ≤ e.strikes) :
    s.restartFrame strike = (State.count .txAbandoned { s with tu := { s.tu with current := none } }, [e.buf]) := by
  have strikes : (strike && decide (3 ≤ e.strikes + 1)) = true := by
    rw [third.1]
    exact decide_eq_true (by omega)
  simp only [State.restartFrame, h, strikes, if_true]

/-- The entry of the frame in progress after a restart that does not end it. -/
def TxEntry.struck (strike : Bool) (e : TxEntry) : TxEntry :=
  { e with strikes := if strike then e.strikes + 1 else e.strikes }

/-- Without a third strike an urgent frame returns and is watched afresh, and a routine one returns. -/
theorem State.restartFrame_returned {strike : Bool} {e : TxEntry} {s : State} (h : s.tu.current = some e)
    (fewer : strike = false ∨ e.strikes < 2) : s.restartFrame strike =
      ((if (s.buf e.buf).cls = some .urgent then
        State.moveBuf e.buf .queued { s with tu := { s.tu with
          current := none
          urgent := { e.struck strike with headTime := some s.ms } :: s.tu.urgent.map (fun x => { x with headTime := none })
          watch := .running (s.now + 10000000) } }
      else
        State.moveBuf e.buf .queued { s with tu := { s.tu with
          current := none, routine := e.struck strike :: s.tu.routine } }), []) := by
  have strikes : (strike && decide (3 ≤ e.strikes + 1)) = false := by
    rcases fewer with h | h
    · rw [h]
      rfl
    · rw [decide_eq_false (by omega), Bool.and_false]
  have stands : State.currentIs .urgent { s with tu := { s.tu with current := some (e.struck strike) } } =
      decide ((s.buf e.buf).cls = some .urgent) := State.currentIs_of (e := e.struck strike) rfl
  simp only [State.restartFrame, h, strikes, Bool.false_eq_true, if_false]
  change (if State.currentIs .urgent { s with tu := { s.tu with current := some (e.struck strike) } } = true then _ else _) = _
  rw [stands]
  by_cases urgent : (s.buf e.buf).cls = some .urgent
  · rw [if_pos (decide_eq_true urgent), if_pos urgent]
    refine congrArg (·, []) ?_
    change State.watchReturned (State.returnCurrent
      { s with tu := { s.tu with current := some (e.struck strike) } }) = _
    rw [State.returnCurrent_urgent (e := e.struck strike)
      (s := { s with tu := { s.tu with current := some (e.struck strike) } }) rfl urgent]
    rfl
  · rw [if_neg (by rw [decide_eq_true_eq]; exact urgent), if_neg urgent]
    refine congrArg (·, []) ?_
    change State.returnCurrent { s with tu := { s.tu with current := some (e.struck strike) } } = _
    rw [State.returnCurrent_other (e := e.struck strike)
      (s := { s with tu := { s.tu with current := some (e.struck strike) } }) rfl urgent]
    rfl

/-- Settles O34. -/
theorem restartFrame : Obligations.RestartFrame := by
  refine fun strike e s current => ⟨fun struck third => ?_, fun fewer => ?_⟩
  · rw [State.restartFrame_lost current ⟨struck, third⟩]
    exact ⟨rfl, rfl, rfl, rfl, (State.counter_count _ _ _).trans (if_pos rfl)⟩
  · rw [State.restartFrame_returned current fewer]
    by_cases urgent : (s.buf e.buf).cls = some .urgent
    · rw [if_pos urgent]
      refine ⟨rfl, rfl, rfl, ?_, fun _ => ⟨rfl, rfl, rfl⟩, fun routine => absurd urgent routine⟩
      exact (congrArg Buffer.state (State.buf_moveBuf _ _ _ _)).trans (by rw [if_pos rfl])
    · rw [if_neg urgent]
      refine ⟨rfl, rfl, rfl, ?_, fun k => absurd k urgent, fun _ => ⟨rfl, rfl, rfl⟩⟩
      exact (congrArg Buffer.state (State.buf_moveBuf _ _ _ _)).trans (by rw [if_pos rfl])

/-! ### At a running hold (R120) -/

/-- The state a routine frame that returns for a running hold leaves, before the selection. -/
def State.heldBack (x : TxEntry) (s : State) : State :=
  State.setBuf x.buf { s.buf x.buf with state := .queued } { s with
    tu := { s.tu with current := none, routine := x :: s.tu.routine, phase := .idle, backoff := none, waiting := false,
                      preambleEnd := none }
    guards := { s.guards with assessment := none }
    radio := s.radioReleased }

theorem State.stopOperation_returnCurrent {x : TxEntry} {s : State} (h : s.tu.current = some x)
    (c : (s.buf x.buf).cls ≠ some .urgent) : s.stopOperation.returnCurrent = s.heldBack x := by
  rw [State.stopOperation_eq]
  exact State.returnCurrent_other h c

/-- Settles O37: the arbiter's answers, and the return for a running hold. -/
theorem backoffEnd : Obligations.BackoffEnd := by
  refine ⟨fun dt e s phase timer due waiting settled => ?_, fun x s current routine hold => ?_⟩
  · have run := exec_settled (exec_backoffEnd_due phase timer due) settled
    have ended : ∀ x : State, x = { s with now := s.now + dt, tu := { s.tu with backoff := none } } →
        x.perform .backoffEnd = if s.currentIs .routine && holdRunning s.nt then x.holdReturn else x.request := by
      rintro x rfl
      exact if_pos ⟨phase, rfl, waiting⟩
    rw [run, ended _ rfl]
    have held : (s.currentIs .routine && holdRunning s.nt) = true ↔
        s.currentClass = some .routine ∧ ∃ n ∈ s.nt, n.hold ≠ none := by
      rw [Bool.and_eq_true, holdRunning_iff, State.currentIs, decide_eq_true_eq]
    refine ⟨fun h => ?_, fun h owner => ?_, fun h owner => ?_, fun h owner rx => ?_⟩
    · rw [if_pos (held.2 h)]
    · rw [if_neg (h ∘ held.1), State.request]
      simp only [owner]
      rw [State.grant, waiting]
      rfl
    · rw [if_neg (h ∘ held.1), State.request]
      rcases owner with owner | ⟨owner, rx⟩
      · simp only [owner]
        rfl
      · simp only [owner, rx, if_true]
        rfl
    · rw [if_neg (h ∘ held.1), State.request]
      simp only [owner, rx, if_false]
  · have back : s.holdReturn = (s.heldBack x).select := by
      rw [State.holdReturn, State.stopOperation_returnCurrent current (by rw [routine]; nofun)]
    have runs : holdRunning (s.heldBack x).nt = true := holdRunning_iff.2 hold
    refine ⟨fun h => ?_, fun u rest urgent owner => ?_⟩
    · rw [back]
      rcases h with urgent | owner
      · exact State.select_nothing urgent (.inr runs)
      · refine State.select_of_not (fun can => can.2.2 ?_)
        change s.radioReleased.owner = _
        rw [State.radioReleased, owner]
        exact owner
    · have can : (s.heldBack x).CanSelect := by
        refine ⟨rfl, rfl, ?_⟩
        change s.radioReleased.owner ≠ _
        rw [State.radioReleased]
        split
        · nofun
        · exact owner
      rw [back, State.select_urgent can urgent]
      refine ⟨rfl, rfl, rfl, rfl, rfl, rfl, fun other => ?_⟩
      rw [State.takeEntry_buf, if_neg (Ne.symm other)]
      exact (State.buf_setBuf _ _ _ _).trans (if_pos rfl)

/-! ## Preamble and body (R79, R124, R125, R128) -/

theorem State.SameDetection.symm {s t : State} (h : s.SameDetection t) : t.SameDetection s :=
  ⟨h.mu.symm, h.ev.symm, h.det.symm, h.nt.symm, h.sc.symm, h.fires.symm, h.overflow.symm, h.epoch.symm⟩

/-- An event whose effect keeps the detection side keeps it whole. -/
theorem State.SameDetection.finish {dt : Us} {s t : State} (h : (s.elapse dt).SameDetection t) :
    (State.finish s t).SameDetection s :=
  ⟨by simp [h.mu], by simp [h.ev], by simp [h.det], by simp [h.nt], by simp [h.sc], by simp [h.fires], by simp [h.overflow],
    by simp [h.epoch]⟩

/-- The all-alert query (R79). -/
theorem allAlert_iff {ms : Ms} {nt : List Neighbour} : allAlert ms nt = true ↔
    (∃ n ∈ nt, n.status = .live) ∧ ∀ n ∈ nt, n.status = .live → n.alert = true ∧ ms - n.lastHeard ≤ 2000 := by
  simp only [allAlert, Bool.and_eq_true, List.any_eq_true, List.all_eq_true, decide_eq_true_eq, Bool.or_eq_true,
    ne_eq, Classical.or_iff_not_imp_left, Classical.not_not]

/-- A watch that runs or has expired is not started (R124). -/
theorem State.startWatch_of_ne {s : State} (h : s.tu.watch ≠ .stopped) : s.startWatch = s := by
  unfold State.startWatch
  split
  · rename_i k
    exact absurd k h
  · rfl

/-- With the frame in progress not leading, the watch starts on the urgent head (R124). -/
theorem State.startWatch_head {s : State} {e : TxEntry} {rest : List TxEntry} (h : s.tu.watch = .stopped)
    (leads : s.currentLeads = false) (urgent : s.tu.urgent = e :: rest) : s.startWatch = { s with tu := { s.tu with
      urgent := { e with headTime := some s.ms } :: rest, watch := .running (s.now + seconds 10) } } := by
  simp only [State.startWatch, h, leads, urgent, Bool.false_eq_true, if_false]

/-- Without a leading urgent frame there is nothing to watch (R124). -/
theorem State.startWatch_none {s : State} (leads : s.currentLeads = false) (urgent : s.tu.urgent = []) :
    s.startWatch = s := by
  unfold State.startWatch
  split
  · simp only [leads, urgent, Bool.false_eq_true, if_false]
  · rfl

/-- The watch's start leaves the phase and its timers, the routine queue and the frames (R124). -/
theorem State.startWatch_rest (s : State) : s.startWatch = { s with tu := { s.tu with
    urgent := s.startWatch.tu.urgent, current := s.startWatch.tu.current, watch := s.startWatch.tu.watch } } := by
  unfold State.startWatch
  split
  · split
    · rfl
    · split <;> rfl
  · rfl

/-- Only a leading frame in progress is given the watch's time (R124). -/
theorem State.startWatch_current {s : State} (leads : s.currentLeads = false) :
    s.startWatch.tu.current = s.tu.current := by
  unfold State.startWatch
  split
  · rw [leads]
    split
    · contradiction
    · split <;> rfl
  · rfl

/-- A frame in PREAMBLE or BODY does not lead (R124). -/
theorem State.currentLeads_eq_false {s : State} (h1 : s.tu.phase ≠ .backoff) (h2 : s.tu.phase ≠ .assess) :
    s.currentLeads = false := by simp [State.currentLeads, h1, h2]

/-- Whether the preamble is long (R125). -/
def State.longPreamble (s : State) : Bool := s.currentIs .urgent || !allAlert s.ms s.nt

/-- The transmit unit in PREAMBLE, before the watch is started on a queued entry (R124, R125). -/
def State.preambled (s : State) : State :=
  { s with
    guards := { s.guards with assessment := none }
    tu := { s.tu with
      phase := .preamble
      longPreamble := s.longPreamble
      preambleEnd := s.after (preambleTime s.longPreamble)
      watch := if s.tu.current.any (fun e => e.headTime.isSome) then .stopped else s.tu.watch
      current := s.tu.current.map (fun e => { e with headTime := none }) } }

theorem State.enterPreamble_eq (s : State) : s.enterPreamble = s.preambled.startWatch := rfl

theorem State.preambled_currentLeads (s : State) : s.preambled.currentLeads = false :=
  State.currentLeads_eq_false nofun nofun

/-- The preamble of the frame in progress is long unless it is no urgent frame and every LIVE neighbour listens (R125). -/
theorem State.longPreamble_eq_false {s : State} : s.longPreamble = false ↔
    s.currentClass ≠ some .urgent ∧ allAlert s.ms s.nt = true := by
  simp [State.longPreamble, State.currentIs]

/-- Settles O39: the preamble's length, the watch, and the busy side. -/
theorem assessmentEnd : Obligations.AssessmentEnd := by
  intro dt level s phase
  dsimp only
  refine ⟨fun clear => ?_, fun busy owner => ?_⟩
  · have run : exec (.assessmentEnd dt level) s = .next (State.finish s (s.elapse dt).enterPreamble) :=
      State.event_eq ((if_pos phase).trans (if_pos clear))
    have rest := State.startWatch_rest (s.elapse dt).preambled
    have short : (s.elapse dt).longPreamble = false ↔ s.currentClass ≠ some .urgent ∧
        (∃ n ∈ s.nt, n.status = .live) ∧
          ∀ n ∈ s.nt, n.status = .live → n.alert = true ∧ (s.now + dt) / 1000 - n.lastHeard ≤ 2000 := by
      rw [State.longPreamble_eq_false, allAlert_iff]
      rfl
    refine ⟨_, run, ?_⟩
    simp only [State.finish_tu, State.finish_guards, State.finish_radio, State.finish_counters, State.finish_pool]
    refine ⟨?_, ?_, ?_, ?_, fun h => ?_, fun h => ?_, ?_, ?_, ?_, fun x current => ?_⟩
    · rw [State.enterPreamble_eq, rest]
      rfl
    · rw [State.enterPreamble_eq, rest]
      rfl
    · rw [State.enterPreamble_eq, rest]
      rfl
    · rw [State.enterPreamble_eq, rest]
      rfl
    · rw [State.enterPreamble_eq, rest]
      change (s.elapse dt).after (preambleTime (s.elapse dt).longPreamble) = _
      rw [short.2 h]
      rfl
    · rw [State.enterPreamble_eq, rest]
      change (s.elapse dt).after (preambleTime (s.elapse dt).longPreamble) = _
      rw [eq_true_of_ne_false (mt short.1 h)]
      rfl
    · rw [State.enterPreamble_eq, rest]
      rfl
    · exact (State.enterPreamble_frame _).sameDetection.finish
    · rw [State.enterPreamble_eq, rest]
      rfl
    · have leads := (s.elapse dt).preambled_currentLeads
      have watch : (s.elapse dt).preambled.tu.watch = if x.headTime = none then s.tu.watch else .stopped := by
        change (if s.tu.current.any _ then Watch.stopped else s.tu.watch) = _
        rw [current, Option.any_some]
        cases x.headTime <;> simp
      rw [State.enterPreamble_eq]
      refine ⟨?_, fun h => ?_, fun u tail left urgent => ?_⟩
      · rw [State.startWatch_current leads]
        exact congrArg (Option.map _) current
      · have same : (s.elapse dt).preambled.startWatch = (s.elapse dt).preambled := by
          rcases h with h | h
          · exact State.startWatch_of_ne (by rw [watch]; exact h)
          · exact State.startWatch_none leads h
        rw [same]
        exact ⟨watch, rfl⟩
      · rw [State.startWatch_head (watch.trans left) leads urgent]
        exact ⟨rfl, rfl⟩
  · refine State.event_eq ((if_pos phase).trans ((if_neg (by omega)).trans ?_))
    rw [State.releaseTu_of]
    · rfl
    · exact owner

/-- A body's bytes are the frame's, but for an own OBSERVATION, which takes its body at the body start (R61, R128). -/
theorem State.bodyFrame_other {x : TxEntry} {s : State}
    (h : x.mark = .relay ∨ Frame.kind (s.buf x.buf).frame ≠ kindObservation) : s.bodyFrame x =
      Frame.withCrc (settleHeader (headerFlags s.pool.busy s.alertListening s.cfg.role) s.cfg.address
        (s.buf x.buf).frame) := by
  have other : ¬ (x.mark = .own ∧ Frame.kind (s.buf x.buf).frame = kindObservation) := by
    rintro ⟨own, kind⟩
    rcases h with h | h
    · rw [h] at own
      cases own
    · exact h kind
  simp only [State.bodyFrame, if_neg other]

/-- An own OBSERVATION takes its whole body at the body start (R61). -/
theorem State.bodyFrame_observation {x : TxEntry} {s : State} (own : x.mark = .own)
    (kind : Frame.kind (s.buf x.buf).frame = kindObservation) : s.bodyFrame x =
      Frame.withCrc (settleHeader (headerFlags s.pool.busy s.alertListening s.cfg.role) s.cfg.address
        (Frame.compose s.cfg kindObservation s.observationBody)) := by
  simp only [State.bodyFrame, if_pos (And.intro own kind)]

/-- The body start changes the frame of its own buffer alone (R128). -/
theorem State.bodyStart_buf (x : TxEntry) (c : Fin 8) (s : State) : (s.bodyStart x).buf c =
    if c = x.buf then { s.buf x.buf with frame := s.bodyFrame x } else s.buf c := State.buf_setBuf _ _ _ _

/-- S and R of an OBSERVATION body (R89): on a MULTI station that has both. -/
def State.smokeBytes (s : State) : List Byte :=
  match s.ev.smoke, s.ev.ratio with
  | some sig, some r => if s.cfg.role = .multi then nat16Bytes sig ++ [BitVec.ofNat 8 r] else []
  | _, _ => []

/-- The temperature and its rate of rise of an OBSERVATION body (R89): on a MULTI or HEAT station that has one. -/
def State.heatBytes (s : State) : List Byte :=
  match s.ev.theta with
  | some th => if s.isDetector then int16Bytes th ++ int16Bytes s.ev.ror else []
  | none => []

/-- An OBSERVATION's body in its two parts (R61, R89). -/
theorem State.observationBody_eq (s : State) : s.observationBody =
    BitVec.ofNat 8 s.det.state.code :: nat16Bytes s.ev.e ++ [s.fu.epoch, s.det.profile.code, s.cfg.zone,
      BitVec.ofNat 8 ((if s.smokeBytes = [] then 0 else 1) + (if s.heatBytes = [] then 0 else 2))] ++
      s.smokeBytes ++ s.heatBytes := by
  unfold State.observationBody State.smokeBytes State.heatBytes
  cases s.ev.smoke <;> cases s.ev.ratio <;> cases s.ev.theta <;> cases s.isDetector <;>
    by_cases role : s.cfg.role = .multi <;> simp [role, partsPresent, nat16Bytes, int16Bytes, le16Bytes]

/-- The role is known once a record is applied (R17). -/
theorem State.isDetector_iff {s : State} : s.isDetector = true ↔ s.cfg.role = .multi ∨ s.cfg.role = .heat := by
  unfold State.isDetector State.cfg
  cases s.sc.config with
  | none => simp [ConfigRecord.blank]
  | some c => simp

/-- Settles O40: the hold check, or the body start. -/
theorem preambleEnd : Obligations.PreambleEnd := by
  intro dt e x s phase timer due current
  have met : (s.elapse dt).tu.phase = .preamble ∧ (s.elapse dt).due (s.elapse dt).tu.preambleEnd = true :=
    ⟨phase, by rw [State.elapse_tu, timer]; exact State.due_of due⟩
  have held : (s.currentIs .routine && holdRunning s.nt) = true ↔
      s.currentClass = some .routine ∧ ∃ n ∈ s.nt, n.hold ≠ none := by
    rw [Bool.and_eq_true, holdRunning_iff, State.currentIs, decide_eq_true_eq]
  refine ⟨fun h => State.event_eq ((if_pos met).trans (if_pos (held.2 h))), fun h => ?_⟩
  have run : exec (.preambleEnd dt) s = .next (State.finish s ((s.elapse dt).bodyStart x)) := by
    refine State.event_eq ((if_pos met).trans ((if_neg (h ∘ held.1)).trans ?_))
    simp only [State.elapse_tu, current]
  have alert : (s.elapse dt).alertListening = true ↔ s.su.list = .alert ∨ s.cfg.role = .relay ∨ s.cfg.role = .panel := by
    simp only [State.alertListening, Bool.or_eq_true, decide_eq_true_eq, or_assoc]
    exact Iff.rfl
  have frame : ((s.elapse dt).bodyStart x).buf x.buf =
      { s.buf x.buf with frame := (s.elapse dt).bodyFrame x } := by rw [State.bodyStart_buf, if_pos rfl]; rfl
  refine ⟨_, run, ?_⟩
  simp only [State.finish_tu, State.finish_radio, State.finish_counters, State.finish_buf, State.finish_guards, frame]
  refine ⟨rfl, current, alert, rfl, rfl, .finish (dt := dt) ⟨rfl, rfl, rfl, rfl, rfl, rfl, rfl, rfl⟩, fun b other => ?_, trivial,
    fun other => ?_, fun own kind => ?_, ?_⟩
  · rw [State.bodyStart_buf, if_neg other]
    rfl
  · exact State.bodyFrame_other other
  · refine ⟨s.smokeBytes, s.heatBytes, ?_, fun sig r multi smoke ratio => ?_, fun absent => ?_, fun th role theta => ?_,
      fun absent => ?_⟩
    · have composed := State.bodyFrame_observation (s := s.elapse dt) own kind
      rw [State.observationBody_eq] at composed
      exact composed
    · simp [State.smokeBytes, multi, smoke, ratio]
    · unfold State.smokeBytes
      split
      · rename_i sig r smoke ratio
        rcases absent with role | none | none
        · rw [if_neg role]
        · rw [smoke] at none
          cases none
        · rw [ratio] at none
          cases none
      · rfl
    · simp [State.heatBytes, State.isDetector_iff.2 role, theta]
    · unfold State.heatBytes
      split
      · rename_i th theta
        refine if_neg (fun detector => ?_)
        rcases absent with role | role | none
        · exact absurd (State.isDetector_iff.1 detector) (by rw [role]; simp)
        · exact absurd (State.isDetector_iff.1 detector) (by rw [role]; simp)
        · rw [theta] at none
          cases none
      · rfl
  · have time (n : Nat) : s.now + dt + (bodyTime n + millis 2) = s.now + dt + (11 + n) * 160 + 2000 := by
      simp only [bodyTime, millis, Nat.add_assoc]
    rw [← time]
    rfl

end Sys2Proof.Machine
end

section
/-! SUPPORT. Frames read and judged: validation (R94 to R98), the kind actions (R143), and the seen list (R140, R141). -/
namespace Sys2Proof.Machine

/-! ## Validation, check by check -/

theorem Addr.valid_iff {a : Addr} : Addr.valid a = true ↔ a ≠ 0 ∧ a ≠ 0xFFFF := by
  simp [Addr.valid]

/-- A byte compared with a code by its value. -/
theorem Byte.eq_iff {b c : Byte} : b = c ↔ b.toNat = c.toNat := BitVec.toNat_inj.symm

/-- Check 6, kind by kind (R85, R95). -/
theorem checkLength_iff (f : List Byte) (kind : 1 ≤ (Frame.kind f).toNat ∧ (Frame.kind f).toNat ≤ 7) :
    let k := (Frame.kind f).toNat
    let len := Frame.length f
    let parts := Frame.body f 6
    checkLength f = true ↔
      k = 1 ∧ len = 7 + (if parts.getLsbD 0 then 3 else 0) + (if parts.getLsbD 1 then 4 else 0) ∨
      k = 2 ∧ len = 11 ∨ k = 3 ∧ len = 8 ∨ k = 4 ∧ len = 8 ∨ k = 5 ∧ len = 9 ∨
      k = 6 ∧ (len = 13 ∨ len = 17 ∨ len = 21 ∨ len = 25) ∨ k = 7 ∧ len = 42 := by
  dsimp only
  have observation : Frame.kind f = kindObservation ↔ (Frame.kind f).toNat = 1 := Byte.eq_iff
  simp only [checkLength, allowedLengths, Bool.and_eq_true, Bool.or_eq_true, decide_eq_true_eq,
    List.contains_iff_mem, ne_eq, observation]
  simp only [observationLength]
  have smoke : (if (Frame.body f 6).getLsbD 0 = true then 3 else 0) = 0 ∨
      (if (Frame.body f 6).getLsbD 0 = true then 3 else 0) = 3 := by split <;> simp
  have heat : (if (Frame.body f 6).getLsbD 1 = true then 4 else 0) = 0 ∨
      (if (Frame.body f 6).getLsbD 1 = true then 4 else 0) = 4 := by split <;> simp
  generalize (if (Frame.body f 6).getLsbD 0 = true then 3 else 0) = p at smoke ⊢
  generalize (if (Frame.body f 6).getLsbD 1 = true then 4 else 0) = q at heat ⊢
  generalize (Frame.kind f).toNat = k at kind ⊢
  obtain ⟨low, high⟩ := kind
  obtain rfl | rfl | rfl | rfl | rfl | rfl | rfl : k = 1 ∨ k = 2 ∨ k = 3 ∨ k = 4 ∨ k = 5 ∨ k = 6 ∨ k = 7 := by omega
  all_goals simp
  omega

/-- Check 7 (R95). -/
theorem checkFlood_iff (f : List Byte) :
    let k := (Frame.kind f).toNat
    let items := (Frame.body f 8).toNat
    checkFlood f = true ↔
      k = 1 ∨ (Frame.origin f ≠ 0 ∧ Frame.origin f ≠ 0xFFFF ∧ 1 ≤ Frame.hopLimit f ∧
      Frame.hops f ≤ Frame.hopLimit f ∧ (Frame.originRole f).toNat ≤ 3 ∧ (k = 5 → (Frame.body f 8).toNat ≤ 1) ∧
      (k = 6 → 1 ≤ items ∧ items ≤ 4 ∧ Frame.length f = 9 + 4 * items ∧
        ∀ i < items, (Frame.body f (12 + 4 * i)).toNat ≤ 1)) := by
  dsimp only
  have observation : Frame.kind f = kindObservation ↔ (Frame.kind f).toNat = 1 := Byte.eq_iff
  have profile : Frame.kind f = kindProfile ↔ (Frame.kind f).toNat = 5 := Byte.eq_iff
  have fault : Frame.kind f = kindFault ↔ (Frame.kind f).toNat = 6 := Byte.eq_iff
  have states : (Frame.faultItems f).all (fun i => decide (i.2.2.toNat ≤ 1)) = true ↔
      ∀ i < (Frame.body f 8).toNat, (Frame.body f (12 + 4 * i)).toNat ≤ 1 := by
    simp only [Frame.faultItems, Frame.faultItem, List.all_map, List.all_eq_true, List.mem_range, Function.comp_apply]
    exact forall₂_congr fun _ _ => decide_eq_true_iff
  simp only [checkFlood, Bool.or_eq_true, Bool.and_eq_true, decide_eq_true_eq, observation, profile, fault, states,
    Addr.valid_iff, ne_eq, and_assoc, Classical.or_iff_not_imp_left, Classical.not_not, ← Nat.one_le_iff_ne_zero]

/-- Check 8 (R97). -/
theorem checkAuthority_iff (f : List Byte) :
    let k := (Frame.kind f).toNat
    let role := (Frame.originRole f).toNat
    checkAuthority f = true ↔ (k = 2 → role ≤ 1) ∧ (k = 3 ∨ k = 4 ∨ k = 5 → role = 3) := by
  dsimp only
  unfold checkAuthority
  split <;> simp_all

/-- Settles O31: the checks of R95 and R97 in their order. -/
theorem validFrame : Obligations.ValidFrame := by
  intro c taken f k len role parts items whole crcOk network sender kind length flood authority
  have senderOk : (Addr.valid (Frame.sender f) = true ∧ Frame.sender f ≠ c.address) ↔ sender := by
    rw [Addr.valid_iff, and_assoc]
  have lengthOk : kind → (checkLength f = true ↔ length) := checkLength_iff f
  have floodOk : checkFlood f = true ↔ flood := checkFlood_iff f
  have authorityOk : checkAuthority f = true ↔ authority := checkAuthority_iff f
  unfold validate
  refine ⟨fun h => if_pos h, fun h1 h2 => ?_, fun h1 h2 h3 => ?_, fun h1 h2 h3 h4 h5 h6 h7 h8 => ?_,
    fun h1 h2 h3 h4 h5 h6 h7 h8 => ?_⟩
  · rw [if_neg (not_not_intro h1), if_pos h2]
  · rw [if_neg (not_not_intro h1), if_neg (not_not_intro h2)]
    repeat
      split
      · rfl
    rename_i n s k l f
    exact absurd ⟨Classical.not_not.1 n, senderOk.1 (Classical.not_not.1 s), Classical.not_not.1 k,
      (lengthOk (Classical.not_not.1 k)).1 (Classical.not_not.1 l), floodOk.1 (Classical.not_not.1 f)⟩ h3
  · rw [if_neg (not_not_intro h1), if_neg (not_not_intro h2), if_neg (not_not_intro h3),
      if_neg (not_not_intro (senderOk.2 h4)),
      if_neg (not_not_intro h5), if_neg (not_not_intro ((lengthOk h5).2 h6)), if_neg (not_not_intro (floodOk.2 h7)),
      if_pos (mt authorityOk.1 h8)]
  · rw [if_neg (not_not_intro h1), if_neg (not_not_intro h2), if_neg (not_not_intro h3), if_neg (not_not_intro (senderOk.2 h4)),
      if_neg (not_not_intro h5), if_neg (not_not_intro ((lengthOk h5).2 h6)), if_neg (not_not_intro (floodOk.2 h7)),
      if_neg (not_not_intro (authorityOk.2 h8))]

/-! ## The kind actions (R143, R144, R194) -/

/-- An origin already listed is left as it is (R144). -/
theorem State.enterFire_listed {o : Addr} {z c : Byte} {s : State} (h : ∃ x ∈ s.fu.fires, x.origin = o) :
    s.enterFire o z c = s := by
  refine if_pos ?_
  rw [List.any_eq_true]
  obtain ⟨x, mem, eq⟩ := h
  exact ⟨x, mem, decide_eq_true eq⟩

theorem not_listed {o : Addr} {l : List FireOrigin} (h : ∀ x ∈ l, x.origin ≠ o) :
    ¬ l.any (fun f => decide (f.origin = o)) = true := by
  rw [List.any_eq_true]
  rintro ⟨x, mem, eq⟩
  exact h x mem (of_decide_eq_true eq)

/-- An absent origin is entered while there is room (R144). -/
theorem State.enterFire_absent {o : Addr} {z c : Byte} {s : State} (h : ∀ x ∈ s.fu.fires, x.origin ≠ o)
    (room : s.fu.fires.length < 8) : s.enterFire o z c =
      State.panelRecord .fireAdded o z c 0 { s with fu := { s.fu with
        fires := s.fu.fires ++ [{ origin := o, zone := z, cause := c, silenced := false }] } } := by
  rw [State.enterFire, if_neg (not_listed h), if_pos room]

/-- An absent origin sets the overflow flag of a full list (R144). -/
theorem State.enterFire_full {o : Addr} {z c : Byte} {s : State} (h : ∀ x ∈ s.fu.fires, x.origin ≠ o)
    (full : 8 ≤ s.fu.fires.length) : s.enterFire o z c = { s with fu := { s.fu with overflow := true } } := by
  rw [State.enterFire, if_neg (not_listed h), if_neg (by omega)]

/-- Settles O45: a listed origin stays by `exec_latched`; the kind actions are those of `State.kindAction`. -/
theorem fireOriginsStay : Obligations.FireOriginsStay := by
  refine ⟨fun i s t f run other held epoch mem => (exec_latched run other held epoch).listed f mem, fun f s => ?_,
    fun origin subject zone code act s => ?_⟩
  · have fire (k : Frame.kind f = 2) : s.kindAction f = s.enterFire (Frame.origin f) (Frame.originZone f) (Frame.body f 8) := by
      rw [State.kindAction, k]
      rfl
    refine ⟨fun k listed => ?_, fun k absent room => ?_, fun k absent full => ?_, fun k => ?_, fun k => ?_, fun k => ?_,
      fun k panel => ?_, fun k panel => ?_⟩
    · rw [fire k, State.enterFire_listed listed]
    · rw [fire k, State.enterFire_absent absent room]
    · rw [fire k, State.enterFire_full absent full]
    · rw [State.kindAction, k]
      rfl
    · rcases k with k | k <;> (rw [State.kindAction, k]; rfl)
    · rw [State.kindAction, k]
      rfl
    · rw [State.kindAction, k]
      exact if_pos panel
    · rw [State.kindAction, k]
      exact if_neg (by rw [panel]; exact Bool.false_ne_true)
  · dsimp only
    refine ⟨fun raised mem => ?_, fun raised absent room => ?_, fun raised absent full => ?_, fun cleared => ?_⟩
    · simp only [State.remoteItem, raised, decide_true, if_true, List.contains_iff_mem, mem]
    · simp only [State.remoteItem, raised, decide_true, if_true, List.contains_iff_mem, absent, if_false, room]
    · have no_room : ¬ s.lu.remote.length < 16 := by omega
      simp only [State.remoteItem, raised, decide_true, if_true, List.contains_iff_mem, absent, if_false, no_room]
    · simp only [State.remoteItem, cleared, decide_false, Bool.false_eq_true, if_false]

end Sys2Proof.Machine
end

section
/-! SUPPORT. The seen list's judgement (R140, R141), and the least element of a list in a rule's order. -/
namespace Sys2Proof.Machine

/-! ## The least element -/

/-- In the order of a rule, no element comes before the least. -/
theorem leastBy_min {α : Type} {lt : α → α → Bool} (asymm : ∀ a b, lt a b = true → lt b a = false)
    (trans : ∀ a b c, lt a b = false → lt b c = false → lt a c = false) {l : List α} :
    ∀ {x : α}, leastBy lt l = some x → ∀ z ∈ l, lt z x = false := by
  have irrefl (a : α) : lt a a = false := Bool.eq_false_iff.2 (fun h => by
    have := asymm a a h
    rw [h] at this
    cases this)
  induction l with
  | nil => nofun
  | cons a l ih =>
    intro x h z hz
    rw [leastBy] at h
    split at h
    · rename_i none
      cases h
      rw [leastBy_eq_none.1 none, List.mem_singleton] at hz
      rw [hz, irrefl]
    · rename_i y some
      split at h
      · rename_i before
        cases h
        rcases List.mem_cons.1 hz with rfl | hz
        · exact asymm _ _ before
        · exact ih some z hz
      · rename_i after
        cases h
        rcases List.mem_cons.1 hz with rfl | hz
        · exact irrefl _
        · exact trans _ _ _ (ih some z hz) (Bool.eq_false_iff.2 after)

/-- An order by time and then by number. -/
theorem lex_asymm {x y u v : Nat} (h : x < y ∨ x = y ∧ u < v) : ¬ (y < x ∨ y = x ∧ v < u) := by omega

theorem lex_trans {x y z u v w : Nat} (h : ¬ (x < y ∨ x = y ∧ u < v)) (k : ¬ (y < z ∨ y = z ∧ v < w)) :
    ¬ (x < z ∨ x = z ∧ u < w) := by omega

/-- Two elements neither of which comes before the other share time and number. -/
theorem lex_antisymm {x y u v : Nat} (h : ¬ (x < y ∨ x = y ∧ u < v)) (k : x < y ∨ x = y ∧ u ≤ v) : u = v := by omega

/-! ## Judging a flood (R141) -/

/-- The seven sequences below `h` (R140). -/
theorem mem_seenWindow {h m : BitVec 8} : m ∈ seenWindow h ↔ 1 ≤ (h - m).toNat ∧ (h - m).toNat ≤ 7 := by
  simp only [seenWindow, List.mem_cons, List.not_mem_nil, or_false]
  constructor
  · rintro (rfl | rfl | rfl | rfl | rfl | rfl | rfl) <;> bv_omega
  · rintro ⟨low, high⟩
    bv_omega

/-- No number is newer or older than itself (0.5.5). -/
theorem newer_self (a : BitVec 8) : newer a a = false := by simp [newer]

theorem older_self (a : BitVec 8) : older a a = false := by simp [older]

/-- A number is newer or older, not both (0.5.5). -/
theorem older_not_newer {a b : BitVec 8} (h : older a b = true) : newer a b = false := by
  simp only [older, newer, decide_eq_true_eq, decide_eq_false_iff_not] at h ⊢
  bv_omega

theorem newer_iff_ahead {a b : BitVec 8} : newer a b = true ↔ 129 ≤ (b - a).toNat := by
  simp only [newer, decide_eq_true_eq]
  bv_omega

theorem ahead_eq_zero {a b : BitVec 8} : (b - a).toNat = 0 ↔ a = b := by
  constructor
  · intro h
    bv_omega
  · rintro rfl
    rw [BitVec.sub_self]
    rfl

/-- An entry that still counts (R140). -/
theorem SeenEntry.not_expired (ms : Ms) (e : SeenEntry) :
    (!e.expired ms) = decide (e.pins ≠ 0 ∨ ms - e.updated < 300000) := by
  rw [SeenEntry.expired, ← decide_not]
  exact decide_eq_decide.2 (Classical.not_and_iff_not_or_not.trans (or_congr Iff.rfl Nat.not_le))

/-- The outcome of R141 in the entry's own run. -/
theorem SeenEntry.judge_same (e : SeenEntry) (seq : BitVec 8) : e.judge e.run seq =
    if newer seq e.h then .accepted
    else if seq = e.h then .duplicate
    else if (seenWindow e.h).contains seq then
      if e.marks.contains seq then .duplicate else .accepted
    else .stale := by
  simp [SeenEntry.judge, newer_self, older_self]

/-- The look at the entry of an origin that has one (R141). -/
theorem seenTake_held {ms : Ms} {run seq : BitVec 8} {x : SeenEntry} {l : List SeenEntry}
    (keyed : (l.map (·.origin)).Nodup) (mem : x ∈ l) (stands : x.pins ≠ 0 ∨ ms - x.updated < 300000) :
    let kept := l.filter (fun e => decide (e.pins ≠ 0 ∨ ms - e.updated < 300000))
    seenTake ms x.origin run seq l = match x.judge run seq with
      | .accepted => (.accepted, kept.map (fun e => if e.origin = x.origin then x.accept ms run seq else e))
      | v => (v, kept) := by
  intro kept
  have kept_eq : l.filter (fun e => !e.expired ms) = kept :=
    List.filter_congr (fun e _ => SeenEntry.not_expired ms e)
  have own : ∀ e ∈ kept, e.origin = x.origin → e = x :=
    fun e he same => eq_of_key_eq keyed (List.mem_filter.1 he).1 mem same
  have found : kept.find? (fun e => decide (e.origin = x.origin)) = some x := by
    cases h : kept.find? (fun e => decide (e.origin = x.origin)) with
    | none => exact absurd (List.find?_eq_none.1 h x (List.mem_filter.2 ⟨mem, decide_eq_true stands⟩)) (by simp)
    | some y => rw [own y (List.mem_of_find?_eq_some h) (by simpa using List.find?_some h)]
  rw [seenTake, kept_eq]
  simp only [found]
  cases x.judge run seq with
  | accepted =>
    refine congrArg (Prod.mk _) (List.map_congr_left (fun e he => ?_))
    split
    · rename_i same
      rw [own e he same]
    · rfl
  | duplicate => rfl
  | stale => rfl

/-- The order in which entries give way (R140). -/
theorem seenBefore_asymm (a b : SeenEntry) (h : seenBefore a b = true) : seenBefore b a = false := by
  rw [seenBefore, decide_eq_true_iff] at h
  exact decide_eq_false (lex_asymm h)

theorem seenBefore_trans (a b c : SeenEntry) (h : seenBefore a b = false) (k : seenBefore b c = false) :
    seenBefore a c = false := by
  rw [seenBefore, decide_eq_false_iff_not] at h k
  exact decide_eq_false (lex_trans h k)

/-- The look at an origin without an entry (R140, R141). -/
theorem seenTake_absent {ms : Ms} {origin : Addr} {run seq : BitVec 8} {l : List SeenEntry}
    (absent : ∀ e ∈ l, e.origin = origin → e.pins = 0 ∧ 300000 ≤ ms - e.updated) :
    seenTake ms origin run seq l =
      (.accepted, seenRoom (l.filter (fun e => decide (e.pins ≠ 0 ∨ ms - e.updated < 300000))) ++
        [{ origin := origin, run := run, h := seq, marks := [], updated := ms, pins := 0 }]) := by
  have none : (l.filter (fun e => !e.expired ms)).find? (fun e => decide (e.origin = origin)) = none := by
    rw [List.find?_eq_none]
    intro e he same
    obtain ⟨mem, fresh⟩ := List.mem_filter.1 he
    have gone : e.expired ms = true := decide_eq_true (absent e mem (of_decide_eq_true same))
    rw [gone] at fresh
    cases fresh
  rw [seenTake]
  simp only [none]
  simp only [SeenEntry.not_expired]

/-- The unpinned entry earliest updated gives way (R140). -/
theorem seenRoom_full {l : List SeenEntry} {y : SeenEntry} (full : 24 ≤ l.length) (mem : y ∈ l) (unpinned : y.pins = 0)
    (first : ∀ z ∈ l, z.pins = 0 → y.updated < z.updated ∨ y.updated = z.updated ∧ y.origin.toNat ≤ z.origin.toNat) :
    seenRoom l = l.filter (fun e => decide (e.origin ≠ y.origin)) := by
  rw [seenRoom, if_neg (by omega)]
  have candidate : y ∈ l.filter (fun e => decide (e.pins = 0)) := List.mem_filter.2 ⟨mem, decide_eq_true unpinned⟩
  split
  · rename_i e least
    obtain ⟨he, pins⟩ := List.mem_filter.1 (leastBy_mem least)
    have before := leastBy_min seenBefore_asymm seenBefore_trans least y candidate
    have after := first e he (of_decide_eq_true pins)
    have same : e.origin = y.origin := by
      rw [seenBefore, decide_eq_false_iff_not] at before
      exact (BitVec.eq_of_toNat_eq (lex_antisymm before after)).symm
    rw [same]
  · rename_i none
    rw [leastBy_eq_none.1 none] at candidate
    cases candidate

/-- Settles O43: the judgement with the list it leaves, and the flood's further way. -/
theorem seenJudgement : Obligations.SeenJudgement := by
  refine ⟨fun ms run seq x l keyed mem stands => ?_, fun ms origin run seq l absent => ?_, fun b s => ?_⟩
  · intro r kept taken below k
    have look : r = _ := seenTake_held (run := run) (seq := seq) keyed mem stands
    refine ⟨fun h => ?_, fun h => ?_, fun h ahead => ?_, fun h same => ?_, fun h low high marked => ?_,
      fun h low high unmarked => ?_, fun h low high => ?_⟩
    · rw [look, SeenEntry.judge, if_pos h, SeenEntry.accept, if_pos h]
    · rw [look, SeenEntry.judge, if_neg (by rw [older_not_newer h]; exact Bool.false_ne_true), if_pos h]
    · subst h
      rw [look, SeenEntry.judge_same, if_pos (newer_iff_ahead.2 ahead), SeenEntry.accept,
        if_neg (by rw [newer_self]; exact Bool.false_ne_true), if_pos (newer_iff_ahead.2 ahead)]
      refine ⟨_, rfl, fun m => ?_⟩
      simp [below, mem_seenWindow]
    · subst h
      have eq : seq = x.h := ahead_eq_zero.1 same
      rw [look, SeenEntry.judge_same, if_neg (by rw [newer_iff_ahead]; omega), if_pos eq]
    · subst h
      have ne : seq ≠ x.h := fun eq => absurd (ahead_eq_zero.2 eq) (by omega)
      rw [look, SeenEntry.judge_same, if_neg (by rw [newer_iff_ahead]; omega), if_neg ne,
        if_pos (by rw [List.contains_iff_mem, mem_seenWindow]; exact ⟨low, high⟩),
        if_pos (List.contains_iff_mem.2 marked)]
    · subst h
      have ne : seq ≠ x.h := fun eq => absurd (ahead_eq_zero.2 eq) (by omega)
      have old : ¬ newer seq x.h = true := by rw [newer_iff_ahead]; omega
      rw [look, SeenEntry.judge_same, if_neg old, if_neg ne,
        if_pos (by rw [List.contains_iff_mem, mem_seenWindow]; exact ⟨low, high⟩),
        if_neg (by rw [List.contains_iff_mem]; exact unmarked), SeenEntry.accept,
        if_neg (by rw [newer_self]; exact Bool.false_ne_true), if_neg old]
      refine ⟨_, rfl, fun m => ?_⟩
      simp [below, mem_seenWindow]
    · subst h
      have ne : seq ≠ x.h := fun eq => absurd (ahead_eq_zero.2 eq) (by omega)
      rw [look, SeenEntry.judge_same, if_neg (by rw [newer_iff_ahead]; omega), if_neg ne,
        if_neg (by rw [List.contains_iff_mem, mem_seenWindow]; omega)]
  · dsimp only
    rw [seenTake_absent absent]
    refine ⟨fun room => ?_, fun full y mem unpinned first => ?_⟩
    · rw [seenRoom, if_pos room]
    · rw [seenRoom_full full mem unpinned first]
  · dsimp only
    rw [State.floodDispatch]
    refine ⟨fun v => ?_, fun v => ?_, fun v => ?_⟩
    · simp only [State.ms, v]
    · simp only [State.ms, v]
      rfl
    · simp only [State.ms, v]
      rfl

end Sys2Proof.Machine
end

section
/-! SUPPORT. A flood as it goes out, and as another station reads it (R86 to R93, R94). -/
namespace Sys2Proof.Machine

/-! ## Two-byte fields -/

/-- A two-byte field reads back as it was written (0.5.6). -/
theorem le16_bytes (x : BitVec 16) : le16 (x.extractLsb' 0 8) (x.extractLsb' 8 8) = x := by
  rw [le16]
  ext i h
  rw [BitVec.getElem_append]
  split
  · simp [BitVec.getLsbD_eq_getElem h]
  · have place : 8 + (i - 8) = i := by omega
    simp [place, BitVec.getLsbD_eq_getElem h]

/-- A figure that fits reads back as it was written. -/
theorem le16_nat16 {n : Nat} (h : n < 65536) : (le16 ((BitVec.ofNat 16 n).extractLsb' 0 8)
    ((BitVec.ofNat 16 n).extractLsb' 8 8)).toNat = n := by
  rw [le16_bytes, BitVec.toNat_ofNat]
  exact Nat.mod_eq_of_lt h

/-! ## A frame as it goes out -/

/-- Header and body of an own frame, settled at its body start (R86, R128). -/
def Frame.settled (c : ConfigRecord) (kind flags : Byte) (body : List Byte) : List Byte :=
  le16Bytes c.networkId ++ [kind, flags] ++ le16Bytes c.address ++ BitVec.ofNat 8 body.length :: body

theorem settleHeader_compose (c : ConfigRecord) (kind flags : Byte) (body : List Byte) :
    settleHeader flags c.address (Frame.compose c kind body) = Frame.settled c kind flags body := rfl

/-- The frame as it goes out: header, body and CRC. -/
def Frame.sent (c : ConfigRecord) (kind flags : Byte) (body : List Byte) : List Byte :=
  Frame.settled c kind flags body ++ le16Bytes (crc (Frame.settled c kind flags body))

section sent

variable {c : ConfigRecord} {kind flags : Byte} {body tail : List Byte}

theorem Frame.length_settled (h : body.length < 256) :
    Frame.length (Frame.settled c kind flags body ++ tail) = body.length := by
  change (BitVec.ofNat 8 body.length).toNat = _
  rw [BitVec.toNat_ofNat]
  exact Nat.mod_eq_of_lt h

theorem Frame.covered_settled (h : body.length < 256) :
    Frame.covered (Frame.settled c kind flags body ++ tail) = Frame.settled c kind flags body := by
  rw [Frame.covered, Frame.length_settled h]
  refine List.take_left' ?_
  simp [Frame.settled, le16Bytes]
  omega

theorem Frame.withCrc_settled (h : body.length < 256) :
    Frame.withCrc (Frame.settled c kind flags body) = Frame.sent c kind flags body := by
  have := Frame.covered_settled (c := c) (kind := kind) (flags := flags) (tail := []) h
  rw [List.append_nil] at this
  rw [Frame.withCrc, this, Frame.sent]

theorem Frame.sent_length : (Frame.sent c kind flags body).length = 9 + body.length := by
  simp [Frame.sent, Frame.settled, le16Bytes]
  omega

/-- The body's bytes are read at their own places. -/
theorem Frame.body_sent {i : Nat} : Frame.body (Frame.sent c kind flags body) i =
    (body ++ le16Bytes (crc (Frame.settled c kind flags body))).getD i 0 := by
  rw [Frame.body, Frame.byte, Nat.add_comm]
  rfl

theorem Frame.crcField_sent (h : body.length < 256) :
    Frame.crcField (Frame.sent c kind flags body) = crc (Frame.settled c kind flags body) := by
  have low : Frame.byte (Frame.sent c kind flags body) (7 + body.length) =
      (crc (Frame.settled c kind flags body)).extractLsb' 0 8 := by
    refine Frame.body_sent.trans ?_
    simp [List.getD_eq_getElem?_getD, le16Bytes]
  have high : Frame.byte (Frame.sent c kind flags body) (8 + body.length) =
      (crc (Frame.settled c kind flags body)).extractLsb' 8 8 := by
    rw [show 8 + body.length = 7 + (body.length + 1) by omega]
    refine Frame.body_sent.trans ?_
    simp [List.getD_eq_getElem?_getD, le16Bytes]
  rw [Frame.crcField, Frame.sent, Frame.length_settled h]
  exact (congr (congrArg le16 low) high).trans (le16_bytes _)

end sent

/-! ## The flood header and the payloads -/

/-- The body of an own flood (R88, R90 to R92). -/
def OwnFrame.body (o : OwnFrame) (c : ConfigRecord) (run seq epoch : BitVec 8) (counters : Vector Nat 16) (supply : Nat) :
    List Byte := floodHeader c run seq epoch ++ o.payload counters supply

/-- Pieces of one length, put together. -/
theorem length_flatMap_of_length {α β : Type} {f : α → List β} {n : Nat} (each : ∀ x, (f x).length = n) (l : List α) :
    (l.flatMap f).length = n * l.length := by
  induction l with
  | nil => rfl
  | cons x l ih => rw [List.flatMap_cons, List.length_append, each, ih, List.length_cons, Nat.mul_succ, Nat.add_comm]

/-- The payload's length, kind by kind (R85). -/
def OwnFrame.payloadLength : OwnFrame → Nat
  | .observation => 0
  | .fire _ _ => 3
  | .silence => 0
  | .reset => 0
  | .profile _ => 1
  | .fault items => 1 + 4 * items.length
  | .health => 34

theorem OwnFrame.payload_length (o : OwnFrame) (counters : Vector Nat 16) (supply : Nat) :
    (o.payload counters supply).length = o.payloadLength := by
  cases o with
  | observation => rfl
  | fire cause e => rfl
  | silence => rfl
  | reset => rfl
  | profile p => rfl
  | fault items =>
    rw [OwnFrame.payload, List.length_cons, length_flatMap_of_length (n := 4), OwnFrame.payloadLength, Nat.add_comm]
    exact fun _ => rfl
  | health =>
    rw [OwnFrame.payload, List.length_append, length_flatMap_of_length (n := 2), Vector.length_toList]
    · rfl
    · exact fun _ => rfl

theorem OwnFrame.body_length (o : OwnFrame) (c : ConfigRecord) (run seq epoch : BitVec 8) (counters : Vector Nat 16)
    (supply : Nat) : (o.body c run seq epoch counters supply).length = 8 + o.payloadLength := by
  rw [OwnFrame.body, List.length_append, OwnFrame.payload_length]
  rfl

/-- The role's code as its byte (0.2). -/
theorem Role.byte_toNat (r : Role) : (BitVec.ofNat 8 r.code).toNat = r.code := by cases r <;> rfl

/-- The hops byte of an origin: no hop yet, and its limit (R88). -/
theorem hops_of_limit {n : Nat} (h : n ≤ 15) :
    ((BitVec.ofNat 8 n).extractLsb' 4 4).toNat = 0 ∧ ((BitVec.ofNat 8 n).extractLsb' 0 4).toNat = n := by
  simp only [BitVec.extractLsb'_toNat, BitVec.toNat_ofNat, Nat.shiftRight_eq_div_pow]
  omega

/-- The header flags read back (R87). -/
theorem headerFlags_bits (busy alert : Bool) (role : Role) :
    (headerFlags busy alert role).getLsbD 0 = busy ∧ (headerFlags busy alert role).getLsbD 1 = alert := by
  cases busy <;> cases alert <;> cases role <;> exact ⟨rfl, rfl⟩

/-- One FAULT item as it is composed (R91). -/
def faultItemBytes (i : FaultCode × Addr × Bool) : List Byte := i.1.code :: le16Bytes i.2.1 ++ [if i.2.2 then 1 else 0]

/-- The bytes of an item stand four to an item. -/
theorem faultItemBytes_getD {j : Nat} (hj : j < 4) {tail : List Byte} :
    ∀ (items : List (FaultCode × Addr × Bool)) (n : Nat) (hn : n < items.length),
      (items.flatMap faultItemBytes ++ tail).getD (4 * n + j) 0 = (faultItemBytes items[n]).getD j 0
  | x :: xs, 0, _ => by
    rw [List.flatMap_cons, List.append_assoc, Nat.mul_zero, Nat.zero_add]
    rw [List.getD_eq_getElem?_getD, List.getD_eq_getElem?_getD]
    exact congrArg (·.getD 0) (List.getElem?_append_left (l₁ := faultItemBytes x) (by simpa [faultItemBytes, le16Bytes] using hj))
  | x :: xs, n + 1, hn => by
    rw [List.flatMap_cons, List.append_assoc, show 4 * (n + 1) + j = (4 * n + j) + 4 by omega]
    exact faultItemBytes_getD hj xs n (Nat.lt_of_succ_lt_succ hn)

section items

variable {f : List Byte} {items : List (FaultCode × Addr × Bool)} {tail : List Byte}

/-- One item of a FAULT body reads back (R86, R91). -/
theorem faultItem_eq (body : ∀ i, Frame.body f (8 + i) =
      (BitVec.ofNat 8 items.length :: (items.flatMap faultItemBytes ++ tail)).getD i 0) {n : Nat} (hn : n < items.length) :
    Frame.faultItem f n = (items[n].1.code, items[n].2.1, if items[n].2.2 then 1 else 0) := by
  have byte (j : Nat) (hj : j < 4) : Frame.body f (8 + (4 * n + j + 1)) = (faultItemBytes items[n]).getD j 0 :=
    (body _).trans (faultItemBytes_getD hj items n hn)
  have code : Frame.body f (9 + 4 * n) = items[n].1.code := by
    rw [show 9 + 4 * n = 8 + (4 * n + 0 + 1) by omega, byte 0 (by decide)]
    rfl
  have low : Frame.body f (10 + 4 * n) = items[n].2.1.extractLsb' 0 8 := by
    rw [show 10 + 4 * n = 8 + (4 * n + 1 + 1) by omega, byte 1 (by decide)]
    rfl
  have high : Frame.body f (11 + 4 * n) = items[n].2.1.extractLsb' 8 8 := by
    rw [show 11 + 4 * n = 8 + (4 * n + 2 + 1) by omega, byte 2 (by decide)]
    rfl
  have state : Frame.body f (12 + 4 * n) = if items[n].2.2 then 1 else 0 := by
    rw [show 12 + 4 * n = 8 + (4 * n + 3 + 1) by omega, byte 3 (by decide)]
    rfl
  rw [Frame.faultItem, code, low, high, state, le16_bytes]

/-- The count of a FAULT body reads back (R86). -/
theorem faultCount_eq (few : items.length ≤ 4) (body : ∀ i, Frame.body f (8 + i) =
      (BitVec.ofNat 8 items.length :: (items.flatMap faultItemBytes ++ tail)).getD i 0) :
    (Frame.body f 8).toNat = items.length := by
  rw [body 0]
  change (BitVec.ofNat 8 items.length).toNat = _
  rw [BitVec.toNat_ofNat]
  omega

/-- The items of a FAULT body read back in their order (R86, R91). -/
theorem faultItems_eq (few : items.length ≤ 4) (body : ∀ i, Frame.body f (8 + i) =
      (BitVec.ofNat 8 items.length :: (items.flatMap faultItemBytes ++ tail)).getD i 0) :
    Frame.faultItems f = items.map (fun i => (i.1.code, i.2.1, if i.2.2 then 1 else 0)) := by
  refine List.ext_getElem (by simp [Frame.faultItems, faultCount_eq few body]) fun n _ hn => ?_
  rw [List.length_map] at hn
  simp only [Frame.faultItems, List.getElem_map, List.getElem_range, faultItem_eq body hn]

end items

section flood

variable {c : ConfigRecord} {kind flags : Byte} {run seq epoch : BitVec 8} {payload : List Byte}

/-- The flood header's fields read back (R88). -/
theorem Frame.header_sent : let f := Frame.sent c kind flags (floodHeader c run seq epoch ++ payload)
    Frame.networkId f = c.networkId ∧ Frame.kind f = kind ∧ Frame.flags f = flags ∧ Frame.sender f = c.address ∧
      Frame.origin f = c.address ∧ Frame.run f = run ∧ Frame.seq f = seq ∧ Frame.epoch f = epoch ∧
      Frame.originRole f = BitVec.ofNat 8 c.role.code ∧ Frame.originZone f = c.zone ∧
      Frame.body f 4 = BitVec.ofNat 8 c.hopLimit :=
  ⟨le16_bytes _, rfl, rfl, le16_bytes _, le16_bytes _, rfl, rfl, rfl, rfl, rfl, rfl⟩

/-- The payload's bytes are read at their own places. -/
theorem Frame.payload_sent (i : Nat) :
    Frame.body (Frame.sent c kind flags (floodHeader c run seq epoch ++ payload)) (8 + i) =
      (payload ++ le16Bytes (crc (Frame.settled c kind flags (floodHeader c run seq epoch ++ payload)))).getD i 0 := by
  rw [Frame.body_sent, Nat.add_comm]
  rfl

end flood

/-- The role's code read back from the flood header (R88). -/
theorem Frame.originRole_code {f : List Byte} {r : Role} (h : Frame.originRole f = BitVec.ofNat 8 r.code) :
    (Frame.originRole f).toNat = r.code := by
  rw [h, Role.byte_toNat]

/-- What the payload adds to the checks of a flood: the length its kind has, the ranges of its bytes, and the authority its
role gives (R95). -/
theorem OwnFrame.checked {o : OwnFrame} {c : ConfigRecord} {counters : Vector Nat 16} {supply : Nat} {f : List Byte}
    {tail : List Byte} (flood : o ≠ .observation) (kind : Frame.kind f = o.kind) (role : (Frame.originRole f).toNat = c.role.code)
    (len : Frame.length f = 8 + o.payloadLength)
    (bytes : ∀ i, Frame.body f (8 + i) = (o.payload counters supply ++ tail).getD i 0)
    (fire : ∀ cause e, o = .fire cause e → c.role = .multi ∨ c.role = .heat)
    (panel : o = .silence ∨ o = .reset ∨ (∃ p, o = .profile p) → c.role = .panel)
    (fault : ∀ items, o = .fault items → 1 ≤ items.length ∧ items.length ≤ 4) :
    let k := (Frame.kind f).toNat
    let len := Frame.length f
    let items := (Frame.body f 8).toNat
    (k = 2 ∧ len = 11 ∨ k = 3 ∧ len = 8 ∨ k = 4 ∧ len = 8 ∨ k = 5 ∧ len = 9 ∨
        k = 6 ∧ (len = 13 ∨ len = 17 ∨ len = 21 ∨ len = 25) ∨ k = 7 ∧ len = 42) ∧
      (k = 5 → (Frame.body f 8).toNat ≤ 1) ∧
      (k = 6 → 1 ≤ items ∧ items ≤ 4 ∧ len = 9 + 4 * items ∧ ∀ i < items, (Frame.body f (12 + 4 * i)).toNat ≤ 1) ∧
      (k = 2 → (Frame.originRole f).toNat ≤ 1) ∧ (k = 3 ∨ k = 4 ∨ k = 5 → (Frame.originRole f).toNat = 3) := by
  intro k l items
  have kindNat : k = o.kind.toNat := congrArg BitVec.toNat kind
  cases o with
  | observation => exact absurd rfl flood
  | fire cause e =>
    obtain multi | heat := fire cause e rfl
    · simp_all [k, l, OwnFrame.kind, OwnFrame.payloadLength, kindFire, Role.code]
    · simp_all [k, l, OwnFrame.kind, OwnFrame.payloadLength, kindFire, Role.code]
  | silence => simp_all [k, l, OwnFrame.kind, OwnFrame.payloadLength, kindSilence, Role.code]
  | reset => simp_all [k, l, OwnFrame.kind, OwnFrame.payloadLength, kindReset, Role.code]
  | profile p =>
    have profile : Frame.body f 8 = p.code := bytes 0
    cases p <;> simp_all [k, l, OwnFrame.kind, OwnFrame.payloadLength, kindProfile, Role.code, Profile.code]
  | fault its =>
    obtain ⟨some, few⟩ := fault its rfl
    have count : items = its.length := faultCount_eq few bytes
    have states (i : Nat) (hi : i < its.length) : (Frame.body f (12 + 4 * i)).toNat ≤ 1 := by
      rw [show Frame.body f (12 + 4 * i) = _ from congrArg (·.2.2) (faultItem_eq bytes hi)]
      cases its[i].2.2
      · exact Nat.zero_le 1
      · exact Nat.le_refl 1
    have kind6 : k = 6 := kindNat
    change l = 8 + (1 + 4 * its.length) at len
    exact ⟨by omega, by omega, fun _ => ⟨by omega, by omega, by omega, fun i hi => states i (by omega)⟩, by omega, by omega⟩
  | health => simp_all [k, l, OwnFrame.kind, OwnFrame.payloadLength, kindHealth, Role.code]

/-- Settles O32: the settled frame's fields are read at their places (`header_sent`, `payload_sent`), it passes the checks by
`validFrame`. -/
theorem ownFloodIsValidElsewhere : Obligations.OwnFloodIsValidElsewhere := by
  intro c c' o run seq epoch counters supply busy alert flood network address other low high fire panel fault body f
  have length : body.length = 8 + o.payloadLength := o.body_length c run seq epoch counters supply
  have small : o.payloadLength ≤ 34 := by
    cases o with
    | fault items => have := fault items rfl; simp only [OwnFrame.payloadLength]; omega
    | _ => simp [OwnFrame.payloadLength]
  have sent : f = Frame.sent c o.kind (headerFlags busy alert c.role) body :=
    Frame.withCrc_settled (by omega)
  have size : f.length = 9 + body.length := by rw [sent, Frame.sent_length]
  have len : Frame.length f = body.length := by rw [sent]; exact Frame.length_settled (by omega)
  have crc : crc (Frame.covered f) = Frame.crcField f := by
    rw [sent, Frame.crcField_sent (by omega)]
    exact congrArg _ (Frame.covered_settled (by omega))
  obtain ⟨networkId, kind, flags, sender, origin, runs, seqs, epochs, role, zone, hops⟩ :=
    Frame.header_sent (c := c) (kind := o.kind) (flags := headerFlags busy alert c.role) (run := run) (seq := seq)
      (epoch := epoch) (payload := o.payload counters supply)
  have bytes := Frame.payload_sent (c := c) (kind := o.kind) (flags := headerFlags busy alert c.role) (run := run)
    (seq := seq) (epoch := epoch) (payload := o.payload counters supply)
  change ∀ i, Frame.body (Frame.sent c o.kind (headerFlags busy alert c.role) body) (8 + i) = _ at bytes
  rw [← sent] at networkId kind flags sender origin runs seqs epochs role zone hops bytes
  obtain ⟨noHops, limit⟩ := hops_of_limit high
  rw [← hops] at noHops limit
  obtain ⟨busyBit, alertBit⟩ := headerFlags_bits busy alert c.role
  rw [← flags] at busyBit alertBit
  obtain ⟨nonzero, unicast⟩ := Addr.valid_iff.1 address
  obtain ⟨lengths, profiles, items, fireRole, panelRole⟩ := OwnFrame.checked flood kind (Frame.originRole_code role)
    (len.trans length) bytes fire panel fault
  refine ⟨?_, size, kind, sender, busyBit, alertBit, origin, runs, seqs, noHops, limit, epochs, zone, ?_, ?_, ?_⟩
  · obtain ⟨-, -, -, -, valid⟩ := validFrame c' (body.length + 2) f
    refine valid ⟨by omega, by omega, by omega⟩ crc (networkId.trans network.symm) ?_ (by omega) (.inr lengths)
      (.inr ⟨?_, ?_, ?_, ?_, ?_, profiles, items⟩) ⟨fireRole, panelRole⟩
    · rw [sender]; exact ⟨nonzero, unicast, other.symm⟩
    · rw [origin]; exact nonzero
    · rw [origin]; exact unicast
    · change 1 ≤ ((Frame.body f 4).extractLsb' 0 4).toNat; omega
    · change ((Frame.body f 4).extractLsb' 4 4).toNat ≤ ((Frame.body f 4).extractLsb' 0 4).toNat; omega
    · rw [Frame.originRole_code role]; cases c.role <;> decide
  · rintro cause e rfl fits
    refine ⟨bytes 0, ?_⟩
    rw [show Frame.body f 9 = _ from bytes 1, show Frame.body f 10 = _ from bytes 2]
    exact le16_nat16 (by omega)
  · rintro p rfl
    exact bytes 0
  · rintro its rfl
    exact faultItems_eq (fault its rfl).2 bytes

end Sys2Proof.Machine
end

section
/-! SUPPORT. The fault list's raise and clear (R172 to R175). -/
namespace Sys2Proof.Machine

/-- The least element of an order by a figure has the least figure. -/
theorem leastBy_le {α : Type} {lt : α → α → Bool} (key : α → Nat) (before : ∀ a b, lt a b = true → key a ≤ key b)
    (after : ∀ a b, lt a b = false → key b ≤ key a) {l : List α} :
    ∀ {x : α}, leastBy lt l = some x → ∀ y ∈ l, key x ≤ key y := by
  induction l with
  | nil => nofun
  | cons a l ih =>
    intro x h y hy
    unfold leastBy at h
    split at h
    · rename_i none
      cases h
      rw [leastBy_eq_none.1 none, List.mem_singleton] at hy
      exact Nat.le_of_eq (congrArg key hy.symm)
    · rename_i z least
      have rest := ih least
      split at h
      · rename_i lower
        cases h
        obtain rfl | hy := List.mem_cons.1 hy
        · exact before _ _ lower
        · exact rest y hy
      · rename_i upper
        cases h
        obtain rfl | hy := List.mem_cons.1 hy
        · exact Nat.le_refl _
        · exact Nat.le_trans (after _ _ (Bool.eq_false_iff.2 upper)) (rest y hy)

/-- With one entry per key, each entry stands once. -/
theorem nodup_of_keys {α β : Type} {key : α → β} {l : List α} (nodup : (l.map key).Nodup) : l.Nodup :=
  List.Pairwise.of_map key (fun _ _ apart same => apart (congrArg key same)) nodup

section keyed

variable {α β : Type} [DecidableEq α] {key : α → β} {l : List α} {r : α}

/-- With one entry per key, an entry's key is nowhere else. -/
theorem key_ne_of_mem_erase (nodup : (l.map key).Nodup) (mem : r ∈ l) {x : α} (hx : x ∈ l.erase r) : key x ≠ key r := by
  intro eq
  have := eq_of_key_eq nodup (List.mem_of_mem_erase hx) mem eq
  subst this
  exact (nodup_of_keys nodup).not_mem_erase hx

/-- With one entry per key, a change of the entry of a key changes that entry alone. -/
theorem map_at_key_perm (nodup : (l.map key).Nodup) (mem : r ∈ l) (p : α → Bool) (hp : ∀ x, p x = true ↔ key x = key r)
    (g : α → α) : (l.map (fun x => if p x then g x else x)).Perm (g r :: l.erase r) := by
  refine ((List.perm_cons_erase mem).map _).trans (.of_eq ?_)
  rw [List.map_cons, if_pos ((hp r).2 rfl)]
  congr 1
  refine (List.map_congr_left fun x hx => if_neg ?_).trans (List.map_id' _)
  rw [hp]
  exact key_ne_of_mem_erase nodup mem hx

/-- With one entry per key, the removal of a key removes its entry alone. -/
theorem filter_key_eq_erase (nodup : (l.map key).Nodup) (mem : r ∈ l) (p : α → Bool) (hp : ∀ x, p x = true ↔ key x = key r) :
    l.filter (fun x => !p x) = l.erase r := by
  rw [(nodup_of_keys nodup).erase_eq_filter]
  refine List.filter_congr fun x hx => ?_
  rw [bne, Bool.not_inj_iff, Bool.eq_iff_iff, hp, beq_iff_eq]
  exact ⟨fun eq => eq_of_key_eq nodup hx mem eq, fun eq => eq ▸ rfl⟩

end keyed

/-- A pair's record is found. -/
theorem recordOf_eq {c : FaultCode} {a : Addr} {l : List FaultRecord} {r : FaultRecord}
    (nodup : (l.map (fun r => (r.code, r.subject))).Nodup) (mem : r ∈ l) (code : r.code = c) (subject : r.subject = a) :
    recordOf c a l = some r := by
  cases found : recordOf c a l with
  | none => exact absurd (FaultRecord.isFor_iff.2 ⟨code, subject⟩) (List.find?_eq_none.1 found r mem)
  | some x =>
    obtain ⟨code', subject'⟩ := FaultRecord.isFor_iff.1 (List.find?_some found)
    rw [eq_of_key_eq nodup (List.mem_of_find?_eq_some found) mem (by rw [code, subject, code', subject'])]

theorem recordOf_eq_none {c : FaultCode} {a : Addr} {l : List FaultRecord} :
    recordOf c a l = none ↔ ∀ r ∈ l, ¬ (r.code = c ∧ r.subject = a) := by
  simp only [recordOf, List.find?_eq_none, FaultRecord.isFor_iff]

/-- The age order goes by the raised time first (R172). -/
theorem recordBefore_raisedAt (a b : FaultRecord) :
    (recordBefore a b = true → a.raisedAt ≤ b.raisedAt) ∧ (recordBefore a b = false → b.raisedAt ≤ a.raisedAt) := by
  rw [recordBefore, decide_eq_true_iff, decide_eq_false_iff_not]
  constructor
  · rintro (lower | ⟨eq, -⟩)
    · exact Nat.le_of_lt lower
    · exact Nat.le_of_eq eq
  · intro h
    exact Nat.le_of_not_lt fun lower => h (.inl lower)

/-- Settles O52. -/
theorem raiseAndClear : Obligations.RaiseAndClear := by
  intro c a now f nodup new
  refine ⟨fun r mem code subject => ?_, fun absent => ?_⟩
  · have found := recordOf_eq nodup mem code subject
    have same (x : FaultRecord) : x.isFor c a = true ↔ (x.code, x.subject) = (r.code, r.subject) := by
      rw [FaultRecord.isFor_iff, Prod.mk.injEq, code, subject]
    refine ⟨fun active => ?_, fun cleared => ?_, fun active => ?_, fun cleared => ?_⟩
    · simp only [FaultLog.raise, found, active, if_true]
    · simp only [FaultLog.raise, found, cleared]
      exact ⟨rfl, map_at_key_perm nodup mem _ same fun _ => new⟩
    · simp only [FaultLog.clear, found, active, if_true]
      exact ⟨trivial, map_at_key_perm nodup mem _ same _⟩
    · simp only [FaultLog.clear, found, cleared]
      rfl
  · have none := recordOf_eq_none.2 absent
    refine ⟨?_, fun room => ?_, fun full active => ?_, fun full cleared => ?_⟩
    · simp only [FaultLog.clear, none]
    · simp only [FaultLog.raise, none, if_pos room]
      rfl
    · have noCleared : leastBy recordBefore (f.records.filter (fun r => !r.active)) = Option.none := by
        rw [leastBy_eq_none, List.filter_eq_nil_iff]
        intro r mem
        rw [active r mem]
        exact Bool.false_ne_true
      simp only [FaultLog.raise, none, if_neg (Nat.not_lt.2 full), noCleared]
    · cases least : leastBy recordBefore (f.records.filter (fun r => !r.active)) with
      | none =>
        obtain ⟨r, mem, off⟩ := cleared
        have := List.filter_eq_nil_iff.1 (leastBy_eq_none.1 least) r mem
        rw [off] at this
        exact absurd rfl this
      | some old =>
        obtain ⟨mem, off⟩ := List.mem_filter.1 (leastBy_mem least)
        refine ⟨old, mem, by simpa using off, fun r hr hoff => ?_, ?_⟩
        · exact leastBy_le (·.raisedAt) (fun a b => (recordBefore_raisedAt a b).1) (fun a b => (recordBefore_raisedAt a b).2)
            least r (List.mem_filter.2 ⟨hr, by rw [hoff]; rfl⟩)
        · simp only [FaultLog.raise, none, if_neg (Nat.not_lt.2 full), least]
          rw [filter_key_eq_erase nodup mem _ fun x => by rw [FaultRecord.isFor_iff, Prod.mk.injEq]]
          rfl

end Sys2Proof.Machine
end

section
/-! SUPPORT. The neighbour table's part of a dispatched frame, its eviction rule and its timers (4.1 to 4.5). -/
namespace Sys2Proof.Machine

/-! ## What the table is told of a sender (R65 to R68) -/

/-- R68's change leaves every field but zone and reported part. -/
theorem Neighbour.report68_eq (ms : Ms) (obs : Option (Byte × Nat × Byte)) (n : Neighbour) :
    n.report68 ms obs = { n with zone := (n.report68 ms obs).zone, report := (n.report68 ms obs).report } := by
  unfold Neighbour.report68
  split
  · rfl
  · split <;> rfl

theorem Neighbour.report68_none (ms : Ms) (n : Neighbour) : n.report68 ms none = n := rfl

theorem Neighbour.report68_unreadable {ms : Ms} {code : Byte} {e : Nat} {z : Byte} (n : Neighbour) (h : 3 < code.toNat) :
    n.report68 ms (some (code, e, z)) = n := by
  have none : DetState.ofCode code = none := by
    unfold DetState.ofCode
    split
    · omega
    · omega
    · omega
    · omega
    · rfl
  simp only [Neighbour.report68, none]

theorem Neighbour.report68_state {ms : Ms} {code : Byte} {e : Nat} {z : Byte} (n : Neighbour) {st : DetState}
    (h : code.toNat = st.code) : n.report68 ms (some (code, e, z)) =
      { n with zone := some z, report := some { state := st, e := min 1000 e, heardAt := ms } } := by
  have read : DetState.ofCode code = some st := by
    unfold DetState.ofCode
    rw [h]
    cases st <;> rfl
  simp only [Neighbour.report68, read]

/-- What R68 leaves of zone and reported part, case by case. -/
theorem Neighbour.report68_reported (ms : Ms) (obs : Option (Byte × Nat × Byte)) (n : Neighbour) :
    (obs = none → (n.report68 ms obs).zone = n.zone ∧ (n.report68 ms obs).report = n.report) ∧
      ∀ code e z, obs = some (code, e, z) →
        (3 < code.toNat → (n.report68 ms obs).zone = n.zone ∧ (n.report68 ms obs).report = n.report) ∧
        (∀ st : DetState, code.toNat = st.code → (n.report68 ms obs).zone = some z ∧
          (n.report68 ms obs).report = some { state := st, e := min 1000 e, heardAt := ms }) := by
  refine ⟨?_, ?_⟩
  · rintro rfl
    exact ⟨rfl, rfl⟩
  · rintro code e z rfl
    refine ⟨fun unreadable => ?_, fun st readable => ?_⟩
    · rw [Neighbour.report68_unreadable n unreadable]
      exact ⟨rfl, rfl⟩
    · rw [Neighbour.report68_state n readable]
      exact ⟨rfl, rfl⟩

/-- A held sender stands as LIVE after the frame unless it is NEW and still below three frames (R67). -/
theorem statusAfter_live {st : NeighbourStatus} {frames : Nat} :
    statusAfter st frames = .live ↔ st ≠ .new ∨ 3 ≤ frames := by
  cases st <;> simp [statusAfter]

/-! ## The eviction candidate (R72) -/

theorem Neighbour.isProtected_iff {ms : Ms} {n : Neighbour} : n.isProtected ms = true ↔
    ∃ r, n.report = some r ∧ (r.state = .verify ∨ r.state = .fire) ∧ ms - r.heardAt < 60000 := by
  simp only [Neighbour.isProtected, Option.any_eq_true, Bool.and_eq_true, Bool.or_eq_true, decide_eq_true_iff]

/-- The picking order is a strict order. -/
theorem evictBefore_asymm (a b : Neighbour) (h : evictBefore a b = true) : evictBefore b a = false := by
  have lex {x y : Int} {t u n m : Nat} (h : x < y ∨ x = y ∧ (t < u ∨ t = u ∧ n < m)) :
      ¬ (y < x ∨ y = x ∧ (u < t ∨ u = t ∧ m < n)) := by omega
  rw [evictBefore, decide_eq_true_iff] at h
  rw [evictBefore, decide_eq_false_iff_not]
  exact lex h

theorem evictBefore_trans (a b c : Neighbour) (h : evictBefore a b = false) (k : evictBefore b c = false) :
    evictBefore a c = false := by
  have lex {x y z : Int} {t u v n m l : Nat} (h : ¬ (x < y ∨ x = y ∧ (t < u ∨ t = u ∧ n < m)))
      (k : ¬ (y < z ∨ y = z ∧ (u < v ∨ u = v ∧ m < l))) : ¬ (x < z ∨ x = z ∧ (t < v ∨ t = v ∧ n < l)) := by omega
  rw [evictBefore, decide_eq_false_iff_not] at h k ⊢
  exact lex h k

/-- No entry comes before the picked one. -/
theorem leastBy_evictBefore {l : List Neighbour} {m : Neighbour} (h : leastBy evictBefore l = some m) (n : Neighbour)
    (mem : n ∈ l) : ¬ (n.avg < m.avg ∨ n.avg = m.avg ∧
      (n.lastHeard < m.lastHeard ∨ n.lastHeard = m.lastHeard ∧ n.addr.toNat < m.addr.toNat)) := by
  have least := leastBy_min evictBefore_asymm evictBefore_trans h n mem
  rwa [evictBefore, decide_eq_false_iff_not] at least

/-- The entries open to eviction that are not LIVE. -/
def notLive (ms : Ms) (nt : List Neighbour) : List Neighbour :=
  (nt.filter (fun n => !n.isProtected ms)).filter (fun n => decide (n.status ≠ .live))

/-- The LIVE entries open to eviction. -/
def openLive (ms : Ms) (nt : List Neighbour) : List Neighbour :=
  (nt.filter (fun n => !n.isProtected ms)).filter (fun n => decide (n.status = .live))

theorem mem_notLive {ms : Ms} {nt : List Neighbour} {n : Neighbour} :
    n ∈ notLive ms nt ↔ n ∈ nt ∧ ¬ n.isProtected ms = true ∧ n.status ≠ .live := by
  simp [notLive, and_comm]

theorem mem_openLive {ms : Ms} {nt : List Neighbour} {n : Neighbour} :
    n ∈ openLive ms nt ↔ n ∈ nt ∧ ¬ n.isProtected ms = true ∧ n.status = .live := by
  simp [openLive, and_comm]

/-- Where no other entry is open to eviction, an open one is LIVE. -/
theorem live_of_notLive_nil {ms : Ms} {nt : List Neighbour} {n : Neighbour} (none : notLive ms nt = []) (mem : n ∈ nt)
    (hopen : ¬ n.isProtected ms = true) : n.status = .live := by
  refine Classical.byContradiction fun lost => ?_
  have := mem_notLive.2 ⟨mem, hopen, lost⟩
  rw [none] at this
  cases this

/-- The two ways to a candidate (R72): the least entry that is not LIVE, or, where none stands, the least LIVE one at least
6 dB weaker. -/
theorem evictionCandidate_some {ms : Ms} {level : Int} {nt : List Neighbour} {m : Neighbour}
    (h : evictionCandidate ms level nt = some m) : leastBy evictBefore (notLive ms nt) = some m ∨
      notLive ms nt = [] ∧ leastBy evictBefore (openLive ms nt) = some m ∧ m.avg + 24 ≤ 4 * level := by
  change (match leastBy evictBefore (notLive ms nt) with
    | some n => some n
    | none => match leastBy evictBefore (openLive ms nt) with
      | some n => if 4 * level ≥ n.avg + 24 then some n else none
      | none => none) = some m at h
  split at h
  · rename_i least
    exact .inl (least.trans h)
  · rename_i none
    split at h
    · rename_i n least
      split at h
      · rename_i weak
        cases h
        exact .inr ⟨leastBy_eq_none.1 none, least, weak⟩
      · cases h
    · cases h

/-- No candidate: no entry open to eviction but LIVE ones that are not 6 dB weaker. -/
theorem evictionCandidate_none {ms : Ms} {level : Int} {nt : List Neighbour} (h : evictionCandidate ms level nt = none) :
    notLive ms nt = [] ∧ ∀ n ∈ openLive ms nt, 4 * level < n.avg + 24 := by
  change (match leastBy evictBefore (notLive ms nt) with
    | some n => some n
    | none => match leastBy evictBefore (openLive ms nt) with
      | some n => if 4 * level ≥ n.avg + 24 then some n else none
      | none => none) = none at h
  split at h
  · cases h
  · rename_i none
    refine ⟨leastBy_eq_none.1 none, fun n mem => ?_⟩
    split at h
    · rename_i m least
      split at h
      · cases h
      · rename_i strong
        have order := leastBy_evictBefore least n mem
        omega
    · rename_i none
      rw [leastBy_eq_none.1 none] at mem
      cases mem

/-! ## What the supervision and transmit units are told (R67, R70, R73) -/

/-- A selection changes the transmit unit, the entry's buffer and the draw alone. -/
theorem State.select_eq (s : State) :
    ∃ d tu pool, s.select = { s with draws := d, tu := tu, pool := pool } := by
  unfold State.select
  split
  · split
    · exact ⟨_, _, _, rfl⟩
    · split
      · split
        · exact ⟨_, _, _, rfl⟩
        · exact ⟨_, _, _, rfl⟩
      · exact ⟨_, _, _, rfl⟩
  · exact ⟨_, _, _, rfl⟩

theorem State.select_counters (s : State) : s.select.counters = s.counters := by
  obtain ⟨d, tu, pool, eq⟩ := s.select_eq
  rw [eq]

theorem State.select_faultActive (c : FaultCode) (a : Addr) (s : State) :
    s.select.FaultActive c a ↔ s.FaultActive c a := by
  rw [State.FaultActive, State.FaultActive, (State.select_frame s).faults]

/-- A raise that can be stored leaves its record ACTIVE (R173). -/
theorem State.raise_faultActive {c : FaultCode} {a : Addr} {s : State} (h : s.FaultStorable c a) :
    (s.raise c a).FaultActive c a := (State.raise_active c a c a s).2 (FaultLog.raise_active h)

/-- A clear leaves no ACTIVE record of its pair (R174). -/
theorem State.clear_faultInactive {c : FaultCode} {a : Addr} {s : State}
    (keyed : (s.faults.records.map (fun r => (r.code, r.subject))).Nodup) : ¬ (s.clear c a).FaultActive c a := by
  rw [State.clear_active]
  exact FaultLog.clear_inactive keyed

/-- A count holds at 65535 (R183). -/
theorem State.count_counter (c : Counter) (s : State) : (s.count c).counter c = min 65535 (s.counter c + 1) := by
  simp [State.count, State.counter]

/-- What the supervision unit is told of the table's answer (R67, R73). -/
def State.tellTable (p : SenderPart) (answer : TableAnswer) (s : State) : State :=
  match answer with
  | .updated true => s.clear .neighbourLost p.addr
  | .refused => s.count .neighbourRefused
  | _ => s

/-- The table's part: the answer is told, and the transmit unit selects when the last hold has gone (R70). -/
theorem State.takeNeighbour_eq (p : SenderPart) (s : State) :
    let r := takeSender s.now s.ms (supervisionLimit s.cfg.observationPeriod) p s.nt
    let told := State.tellTable p r.1 { s with nt := r.2 }
    s.takeNeighbour p = if holdRunning s.nt && !holdRunning r.2 then told.select else told := rfl

theorem State.takeNeighbour_counters (p : SenderPart) (s : State) :
    let r := takeSender s.now s.ms (supervisionLimit s.cfg.observationPeriod) p s.nt
    (s.takeNeighbour p).counters = (State.tellTable p r.1 { s with nt := r.2 }).counters := by
  rw [State.takeNeighbour_eq]
  dsimp only
  split
  · exact State.select_counters _
  · rfl

theorem State.takeNeighbour_faultActive (p : SenderPart) (c : FaultCode) (a : Addr) (s : State) :
    let r := takeSender s.now s.ms (supervisionLimit s.cfg.observationPeriod) p s.nt
    (s.takeNeighbour p).FaultActive c a ↔ (State.tellTable p r.1 { s with nt := r.2 }).FaultActive c a := by
  rw [State.takeNeighbour_eq]
  dsimp only
  split
  · exact State.select_faultActive c a _
  · exact .rfl

theorem State.tellTable_nt (p : SenderPart) (answer : TableAnswer) (s : State) : (s.tellTable p answer).nt = s.nt := by
  unfold State.tellTable
  split
  · exact (State.clear_frame _ _ _).nt
  · rfl
  · rfl

/-- Nothing is told of the other answers. -/
theorem State.tellTable_of {p : SenderPart} {answer : TableAnswer} {s : State} (live : answer ≠ .updated true)
    (refused : answer ≠ .refused) : s.tellTable p answer = s := by
  unfold State.tellTable
  split
  · exact absurd rfl live
  · exact absurd rfl refused
  · rfl

/-- Where nothing is told, the table's part alone is left (R70). -/
theorem State.takeNeighbour_of {p : SenderPart} {s : State} :
    let r := takeSender s.now s.ms (supervisionLimit s.cfg.observationPeriod) p s.nt
    r.1 ≠ .updated true → r.1 ≠ .refused → s.takeNeighbour p =
      if holdRunning s.nt && !holdRunning r.2 then State.select { s with nt := r.2 } else { s with nt := r.2 } := by
  intro r live refused
  rw [State.takeNeighbour_eq, State.tellTable_of live refused]

/-- What the table does with a sender it holds (R65). -/
theorem takeSender_held {now : Us} {ms limit : Ms} {p : SenderPart} {nt : List Neighbour} {n : Neighbour}
    (keyed : (nt.map (·.addr)).Nodup) (mem : n ∈ nt) (addr : n.addr = p.addr) : takeSender now ms limit p nt =
      (.updated (decide (n.status ≠ .live ∧ (n.heard now ms limit p).status = .live)),
        nt.map (fun m => if m.addr = p.addr then m.heard now ms limit p else m)) := by
  have found := entryOf_of_mem keyed mem
  rw [addr] at found
  simp only [takeSender, found]

section absent

variable {now : Us} {ms limit : Ms} {p : SenderPart} {nt : List Neighbour}

theorem entryOf_absent (absent : ∀ n ∈ nt, n.addr ≠ p.addr) : entryOf p.addr nt = none := by
  rw [entryOf, List.find?_eq_none]
  intro n mem
  rw [decide_eq_true_iff]
  exact absent n mem

/-- A sender below -95 dBm is not admitted (R71). -/
theorem takeSender_weak (absent : ∀ n ∈ nt, n.addr ≠ p.addr) (weak : p.level < -95) :
    takeSender now ms limit p nt = (.ignored, nt) := by
  simp only [takeSender, entryOf_absent absent, if_pos weak]

/-- A sender is admitted where an entry is free (R71). -/
theorem takeSender_room (absent : ∀ n ∈ nt, n.addr ≠ p.addr) (strong : -95 ≤ p.level) (room : nt.length < 16) :
    takeSender now ms limit p nt = (.admitted, nt ++ [Neighbour.admitted now ms limit p]) := by
  simp only [takeSender, entryOf_absent absent, if_neg (Int.not_lt.2 strong), if_pos room]

/-- In a full table a sender takes the candidate's place (R72). -/
theorem takeSender_evicts (absent : ∀ n ∈ nt, n.addr ≠ p.addr) (strong : -95 ≤ p.level) (full : 16 ≤ nt.length)
    {m : Neighbour} (candidate : evictionCandidate ms p.level nt = some m) : takeSender now ms limit p nt =
      (.admitted, nt.filter (fun x => decide (x.addr ≠ m.addr)) ++ [Neighbour.admitted now ms limit p]) := by
  simp only [takeSender, entryOf_absent absent, if_neg (Int.not_lt.2 strong), if_neg (Nat.not_lt.2 full), candidate]

/-- A full table without a candidate refuses the sender (R73). -/
theorem takeSender_refuses (absent : ∀ n ∈ nt, n.addr ≠ p.addr) (strong : -95 ≤ p.level) (full : 16 ≤ nt.length)
    (candidate : evictionCandidate ms p.level nt = none) : takeSender now ms limit p nt = (.refused, nt) := by
  simp only [takeSender, entryOf_absent absent, if_neg (Int.not_lt.2 strong), if_neg (Nat.not_lt.2 full), candidate]

end absent

/-! ## The fields of an updated and of an admitted entry (R66 to R69, R71) -/

/-- The hold a frame sets (R69). -/
theorem holdOf_eq (now : Us) (busy : Bool) : holdOf now busy = if busy then some (now + 2000000) else none := by
  simp [holdOf, millis]

/-- A held sender's entry before R68's part. -/
def Neighbour.counted (now : Us) (ms limit : Ms) (p : SenderPart) (n : Neighbour) : Neighbour :=
  { n with
    avg := linkAverage n.avg p.level
    frames := min 255 (n.frames + 1)
    lastHeard := ms
    alert := p.alert
    hold := holdOf now p.busy
    supervision := some (ms + limit)
    status := statusAfter n.status (min 255 (n.frames + 1)) }

theorem Neighbour.heard_eq (now : Us) (ms limit : Ms) (p : SenderPart) (n : Neighbour) :
    ∃ zone report, n.heard now ms limit p = { n.counted now ms limit p with zone := zone, report := report } :=
  ⟨_, _, Neighbour.report68_eq ms p.obs _⟩

/-- An admitted entry before R68's part. -/
def Neighbour.fresh (now : Us) (ms limit : Ms) (p : SenderPart) : Neighbour :=
  { addr := p.addr, zone := none, avg := 4 * p.level, frames := 1, lastHeard := ms, alert := p.alert, report := none,
    hold := holdOf now p.busy, supervision := some (ms + limit), status := .new }

theorem Neighbour.admitted_eq (now : Us) (ms limit : Ms) (p : SenderPart) :
    ∃ zone report, Neighbour.admitted now ms limit p = { Neighbour.fresh now ms limit p with zone := zone, report := report } :=
  ⟨_, _, Neighbour.report68_eq ms p.obs _⟩

/-- Settles O25: the fields by `report68_eq`, the candidate by the order's least elements, and what is told by the answer. -/
theorem senderUpdate : Obligations.SenderUpdate := by
  refine ⟨fun now ms limit p nt keyed => ⟨fun n mem addr => ?_, ?_, takeSender_weak, takeSender_room,
    fun absent strong full m => takeSender_evicts absent strong full, takeSender_refuses⟩,
    fun ms level nt => ⟨fun m candidate => ?_, fun candidate n mem open_ => ?_⟩, fun p s => ⟨?_, fun live keyed => ?_,
    fun refused => ?_, fun live refused => ?_⟩⟩
  · refine ⟨n.heard now ms limit p, ?_, ?_⟩
    · rw [takeSender_held keyed mem addr]
      refine (List.Perm.of_eq (List.map_congr_left fun m _ => ?_)).trans (map_at_key_perm keyed mem
        (fun m => decide (m.addr = p.addr)) (fun m => by rw [decide_eq_true_iff, addr]) fun m => m.heard now ms limit p)
      simp only [decide_eq_true_iff]
    · have reported := Neighbour.report68_reported ms p.obs (n.counted now ms limit p)
      rw [takeSender_held keyed mem addr]
      have live : (n.heard now ms limit p).status = .live ↔ n.status ≠ .new ∨ 3 ≤ min 255 (n.frames + 1) := by
        obtain ⟨zone, report, eq⟩ := Neighbour.heard_eq now ms limit p n
        rw [eq]
        exact statusAfter_live
      refine ⟨?_, ?_, ?_, ?_, ?_, ?_, ?_, reported, live, ?_⟩
      case refine_8 => rw [TableAnswer.updated.injEq, decide_eq_true_iff]
      all_goals obtain ⟨zone, report, eq⟩ := Neighbour.heard_eq now ms limit p n
      all_goals rw [eq]
      · exact addr
      · rfl
      · rfl
      · rfl
      · exact holdOf_eq _ _
      · rfl
      · exact linkAverage_eq_fdiv _ _
  · have reported := Neighbour.report68_reported ms p.obs (Neighbour.fresh now ms limit p)
    refine ⟨?_, ?_, ?_, ?_, ?_, ?_, ?_, ?_, reported⟩
    all_goals obtain ⟨zone, report, eq⟩ := Neighbour.admitted_eq now ms limit p
    all_goals rw [eq]
    · rfl
    · rfl
    · rfl
    · rfl
    · rfl
    · exact holdOf_eq _ _
    · rfl
    · rfl
  · obtain least | ⟨noOther, least, weak⟩ := evictionCandidate_some candidate
    · obtain ⟨mem, open_, lost⟩ := mem_notLive.1 (leastBy_mem least)
      exact ⟨mem, mt Neighbour.isProtected_iff.2 open_, fun _ n hn hopen hlost =>
        leastBy_evictBefore least n (mem_notLive.2 ⟨hn, mt Neighbour.isProtected_iff.1 hopen, hlost⟩),
        fun live => absurd live lost⟩
    · obtain ⟨mem, open_, live⟩ := mem_openLive.1 (leastBy_mem least)
      refine ⟨mem, mt Neighbour.isProtected_iff.2 open_, fun lost => absurd live lost, fun _ => ⟨weak, fun n hn hopen => ?_⟩⟩
      have nLive := live_of_notLive_nil noOther hn (mt Neighbour.isProtected_iff.1 hopen)
      exact ⟨nLive, leastBy_evictBefore least n (mem_openLive.2 ⟨hn, mt Neighbour.isProtected_iff.1 hopen, nLive⟩)⟩
  · obtain ⟨noOther, strong⟩ := evictionCandidate_none candidate
    have live := live_of_notLive_nil noOther mem (mt Neighbour.isProtected_iff.1 open_)
    exact ⟨live, strong n (mem_openLive.2 ⟨mem, mt Neighbour.isProtected_iff.1 open_, live⟩)⟩
  · rw [State.takeNeighbour_eq]
    split
    · rw [(State.select_frame _).nt]
      exact State.tellTable_nt _ _ _
    · exact State.tellTable_nt _ _ _
  · refine mt (State.takeNeighbour_faultActive _ _ _ _).1 ?_
    rw [show (takeSender s.now s.ms (supervisionLimit s.cfg.observationPeriod) p s.nt).1 = _ from live]
    exact State.clear_faultInactive keyed.faults
  · rw [State.counter, State.takeNeighbour_counters,
      show (takeSender s.now s.ms (supervisionLimit s.cfg.observationPeriod) p s.nt).1 = _ from refused]
    exact State.count_counter .neighbourRefused s
  · exact State.takeNeighbour_of live refused

/-! ## The table's timers (R70, R75, R76) -/

theorem endSupervision_keys (a : Addr) (nt : List Neighbour) : (endSupervision a nt).map (·.addr) = nt.map (·.addr) := by
  rw [endSupervision, List.map_map]
  refine List.map_congr_left fun n _ => ?_
  rw [Function.comp_apply]
  split <;> rfl

/-- The entry whose supervision has just fallen (R75). -/
theorem entryOf_endSupervision {nt : List Neighbour} {n : Neighbour} (keyed : (nt.map (·.addr)).Nodup) (mem : n ∈ nt) :
    entryOf n.addr (endSupervision n.addr nt) = some { n with supervision := none } :=
  entryOf_of_mem (n := { n with supervision := none }) ((endSupervision_keys _ _).symm ▸ keyed)
    (List.mem_map.2 ⟨n, mem, if_pos rfl⟩)

theorem loseEntry_endSupervision (a : Addr) (nt : List Neighbour) : loseEntry a (endSupervision a nt) =
    nt.map (fun m => if m.addr = a then { m with supervision := none, status := .lost } else m) := by
  rw [loseEntry, endSupervision, List.map_map]
  refine List.map_congr_left fun n _ => ?_
  rw [Function.comp_apply]
  by_cases h : n.addr = a
  · rw [if_pos h, if_pos h, if_pos h]
  · rw [if_neg h, if_neg h, if_neg h]

theorem removeEntry_endSupervision (a : Addr) (nt : List Neighbour) : removeEntry a (endSupervision a nt) =
    nt.filter (fun m => decide (m.addr ≠ a)) := by
  rw [removeEntry, endSupervision, List.filter_map]
  have same : (nt.filter ((fun m : Neighbour => decide (m.addr ≠ a)) ∘
      fun n => if n.addr = a then { n with supervision := none } else n)) = nt.filter (fun m => decide (m.addr ≠ a)) := by
    refine List.filter_congr fun n _ => ?_
    rw [Function.comp_apply]
    split <;> rfl
  rw [same]
  refine (List.map_congr_left fun n mem => if_neg ?_).trans (List.map_id' _)
  simpa using (List.mem_filter.1 mem).2

/-- An entry without a running hold leaves without ending the last hold (R70). -/
theorem holdRunning_removeEntry {nt : List Neighbour} {n : Neighbour} (keyed : (nt.map (·.addr)).Nodup) (mem : n ∈ nt)
    (none : n.hold = none) : (holdRunning nt && !holdRunning (removeEntry n.addr nt)) = false := by
  cases running : holdRunning nt with
  | false => rfl
  | true =>
    obtain ⟨m, hm, hold⟩ := holdRunning_iff.1 running
    have other : m.addr ≠ n.addr := fun eq => by
      rw [eq_of_key_eq keyed hm mem eq, none] at hold
      exact hold rfl
    have still : holdRunning (removeEntry n.addr nt) = true :=
      holdRunning_iff.2 ⟨m, List.mem_filter.2 ⟨hm, decide_eq_true other⟩, hold⟩
    rw [still]
    rfl

/-- Settles O26: the expiry is taken with the oscillator settled (`exec_settled`), and its work is the entry's. -/
theorem neighbourTimers : Obligations.NeighbourTimers := by
  refine ⟨?_, fun dt e n s keyed mem supervision fallen settled => ?_⟩
  · intro dt e n s keyed mem hold due settled after
    have run : exec (.holdTimerExpiry dt n.addr) s = .next (State.finish s
        (State.holdEnded { s with now := s.now + dt, nt := after })) :=
      exec_settled (exec_holdTimerExpiry_due keyed mem hold due) settled
    refine ⟨fun running => ?_, fun none => ?_⟩
    · rw [run, State.holdEnded, if_pos (holdRunning_iff.2 running)]
    · rw [run, State.holdEnded, if_neg (Bool.eq_false_iff.1 (holdRunning_eq_false.2 none))]
  · have run : exec (.supervisionExpiry dt n.addr) s = .next (State.finish s
        (State.supervisionFell n.addr { s with now := s.now + dt, nt := endSupervision n.addr s.nt })) :=
      exec_settled (exec_supervisionExpiry_due keyed mem supervision fallen) settled
    have found := entryOf_endSupervision keyed mem
    refine ⟨fun live storable => ?_, fun new none => ?_⟩
    · have lost : State.supervisionFell n.addr { s with now := s.now + dt, nt := endSupervision n.addr s.nt } =
          State.raise .neighbourLost n.addr { s with
            now := s.now + dt, nt := loseEntry n.addr (endSupervision n.addr s.nt) } := by
        simp only [State.supervisionFell, found, live, Option.isSome_none, Bool.false_eq_true, if_false]
      rw [lost] at run
      have same := (State.raise_frame .neighbourLost n.addr { s with
        now := s.now + dt, nt := loseEntry n.addr (endSupervision n.addr s.nt) }).sameDetection
      refine ⟨_, run, ?_, ?_, ?_, ?_, ?_⟩
      · rw [State.finish_faultActive]
        exact State.raise_faultActive storable
      · rw [State.finish_nt, same.nt]
        exact loseEntry_endSupervision _ _
      · rw [State.finish_ev, same.ev]
      · rw [State.finish_det, same.det]
      · rw [State.finish_fu, same.fires]
    · have keyed' : ((endSupervision n.addr s.nt).map (·.addr)).Nodup := (endSupervision_keys _ _).symm ▸ keyed
      have still := holdRunning_removeEntry (n := { n with supervision := Option.none }) keyed'
        (List.mem_map.2 ⟨n, mem, if_pos rfl⟩) none
      rw [run, ← removeEntry_endSupervision]
      simp only [State.supervisionFell, found, new, Option.isSome_none, Bool.false_eq_true, if_false, still]

end Sys2Proof.Machine
end

section
/-! SUPPORT. What an offer and an origination bring: the frames that stand, the records of the origination, and how an urgent
offer is taken (R117 to R119, R124, R126, R137). -/
namespace Sys2Proof.Machine

/-! ## What offers leave -/

/-- From `s` to `t` every buffer that is not FREE keeps its class, its frame and its level, whatever state it moves to. -/
def State.FramesKept (s t : State) : Prop :=
  ∀ b, (s.buf b).state ≠ .free → (t.buf b).state ≠ .free ∧ (t.buf b).cls = (s.buf b).cls ∧
    (t.buf b).frame = (s.buf b).frame ∧ (t.buf b).level = (s.buf b).level

theorem State.FramesKept.of_eq {s t : State} (h : t.pool.bufs = s.pool.bufs) : s.FramesKept t := fun b taken => by
  have same : t.buf b = s.buf b := by rw [State.buf, State.buf, Pool.get, Pool.get, h]
  rw [same]
  exact ⟨taken, rfl, rfl, rfl⟩

theorem State.FramesKept.refl (s : State) : s.FramesKept s := .of_eq rfl

theorem State.FramesKept.trans {s t u : State} (h : s.FramesKept t) (k : t.FramesKept u) : s.FramesKept u :=
  fun b taken =>
    have ⟨taken1, cls1, frame1, level1⟩ := h b taken
    have ⟨taken2, cls2, frame2, level2⟩ := k b taken1
    ⟨taken2, cls2.trans cls1, frame2.trans frame1, level2.trans level1⟩

/-- The entries of the transmit unit. -/
def Tu.entries (tu : Tu) : List TxEntry := tu.current.toList ++ tu.urgent ++ tu.routine

theorem Tu.mem_entries {tu : Tu} {x : TxEntry} : x ∈ tu.entries ↔ tu.current = some x ∨ x ∈ tu.urgent ∨ x ∈ tu.routine := by
  simp [Tu.entries]

/-- Every entry of `p` stands in `q`, its counts and head time aside. -/
def Tu.Keeps (p q : Tu) : Prop := ∀ x ∈ p.entries, ∃ y ∈ q.entries, y.buf = x.buf ∧ y.mark = x.mark

theorem Tu.Keeps.of_mem {p q : Tu} (h : ∀ x ∈ p.entries, x ∈ q.entries) : p.Keeps q := fun x hx => ⟨x, h x hx, rfl, rfl⟩

theorem Tu.Keeps.refl (p : Tu) : p.Keeps p := .of_mem fun _ => id

theorem Tu.Keeps.trans {p q r : Tu} (h : p.Keeps q) (k : q.Keeps r) : p.Keeps r := fun x hx =>
  have ⟨y, hy, buf, mark⟩ := h x hx
  have ⟨z, hz, buf', mark'⟩ := k y hy
  ⟨z, hz, buf'.trans buf, mark'.trans mark⟩

/-- An offer or a selection leaves the frames and entries that stand and the flood unit. -/
structure State.Offers (s t : State) : Prop where
  frames : s.FramesKept t
  entries : s.tu.Keeps t.tu
  fu : t.fu = s.fu

/-- A routine offer or a selection leaves besides them the radio, the guards and the counters. -/
structure State.OffersQuietly (s t : State) : Prop extends s.Offers t where
  radio : t.radio = s.radio
  guards : t.guards = s.guards
  counters : t.counters = s.counters

theorem State.Offers.refl (s : State) : s.Offers s := ⟨.refl s, .refl _, rfl⟩

theorem State.Offers.trans {s t u : State} (h : s.Offers t) (k : t.Offers u) : s.Offers u :=
  ⟨h.frames.trans k.frames, h.entries.trans k.entries, k.fu.trans h.fu⟩

theorem State.OffersQuietly.refl (s : State) : s.OffersQuietly s := ⟨.refl s, rfl, rfl, rfl⟩

theorem State.OffersQuietly.trans {s t u : State} (h : s.OffersQuietly t) (k : t.OffersQuietly u) : s.OffersQuietly u :=
  ⟨h.toOffers.trans k.toOffers, k.radio.trans h.radio, k.guards.trans h.guards, k.counters.trans h.counters⟩

theorem State.moveBuf_offers (b : Fin 8) {st : BufState} (taken : st ≠ .free) (s : State) :
    s.OffersQuietly (s.moveBuf b st) := by
  refine ⟨⟨fun c hc => ?_, .refl _, rfl⟩, rfl, rfl, rfl⟩
  rw [State.buf_moveBuf]
  split
  · rename_i eq
    subst eq
    exact ⟨taken, rfl, rfl, rfl⟩
  · exact ⟨hc, rfl, rfl, rfl⟩

theorem State.tu_offers {tu : Tu} {s : State} (h : s.tu.Keeps tu) : s.OffersQuietly { s with tu := tu } :=
  ⟨⟨.of_eq rfl, h, rfl⟩, rfl, rfl, rfl⟩

/-- An entry taken from its queue becomes the frame in progress (R119). -/
theorem State.takeEntry_offers {e : TxEntry} {tu : Tu} {s : State}
    (h : s.tu.Keeps { tu with current := some e }) : s.OffersQuietly (State.takeEntry e { s with tu := tu }) := by
  have moved := (State.tu_offers h).trans (State.moveBuf_offers e.buf (st := .sending) nofun _)
  exact ⟨⟨moved.frames.trans (.of_eq rfl), moved.entries.trans (.refl _), rfl⟩, rfl, rfl, rfl⟩

theorem State.select_offers (s : State) : s.OffersQuietly s.select := by
  unfold State.select
  split
  · rename_i can
    obtain ⟨-, current, -⟩ := can
    split
    · rename_i e rest urgent
      refine State.takeEntry_offers (.of_mem fun x hx => ?_)
      simpa [Tu.entries, current, urgent] using hx
    · split
      · rename_i e rest routine
        split
        · exact .refl s
        · refine State.takeEntry_offers (.of_mem fun x hx => ?_)
          simp only [Tu.entries, current, routine, List.mem_append, List.mem_cons, Option.toList] at hx ⊢
          grind
      · exact .refl s
  · exact .refl s

theorem State.stopOperation_offers (s : State) : s.Offers s.stopOperation := by
  unfold State.stopOperation State.releaseTu
  split <;> exact ⟨.of_eq rfl, .refl _, rfl⟩

theorem State.returnCurrent_offers (s : State) : s.OffersQuietly s.returnCurrent := by
  unfold State.returnCurrent
  split
  · exact .refl s
  · rename_i e current
    have moved := State.moveBuf_offers e.buf (st := .queued) nofun s
    dsimp only
    split
    · refine moved.trans (State.tu_offers (.of_mem fun x hx => ?_))
      rw [Tu.mem_entries] at hx ⊢
      simpa [current, eq_comm, or_assoc] using hx
    · refine moved.trans (State.tu_offers (.of_mem fun x hx => ?_))
      rw [Tu.mem_entries] at hx ⊢
      simpa [current, eq_comm, or_left_comm] using hx

theorem State.preempt_offers (s : State) : s.Offers s.preempt := by
  unfold State.preempt
  split
  · have back := s.stopOperation_offers.trans (State.returnCurrent_offers _).toOffers
    exact back.trans ⟨.of_eq rfl, .refl _, rfl⟩
  · exact .refl s

theorem State.startWatch_offers (s : State) : s.OffersQuietly s.startWatch := by
  unfold State.startWatch
  split
  · split
    · refine State.tu_offers fun x hx => ?_
      rw [Tu.mem_entries] at hx
      obtain current | queued := hx
      · exact ⟨{ x with headTime := some s.ms }, Tu.mem_entries.2 (.inl (by rw [current]; rfl)), rfl, rfl⟩
      · exact ⟨x, Tu.mem_entries.2 (.inr queued), rfl, rfl⟩
    · split
      · rename_i e rest urgent
        refine State.tu_offers fun x hx => ?_
        rw [Tu.mem_entries, urgent, List.mem_cons] at hx
        obtain current | (rfl | rest) | routine := hx
        · exact ⟨x, Tu.mem_entries.2 (.inl current), rfl, rfl⟩
        · exact ⟨{ x with headTime := some s.ms }, Tu.mem_entries.2 (.inr (.inl List.mem_cons_self)), rfl, rfl⟩
        · exact ⟨x, Tu.mem_entries.2 (.inr (.inl (List.mem_cons_of_mem _ rest))), rfl, rfl⟩
        · exact ⟨x, Tu.mem_entries.2 (.inr (.inr routine)), rfl, rfl⟩
      · exact .refl s
  · exact .refl s

/-- An urgent offer's entry stands last of the urgent ones (R118). -/
theorem State.queueUrgent_offers (b : Fin 8) (mark : OriginMark) (s : State) : s.OffersQuietly (s.queueUrgent b mark) := by
  refine (State.moveBuf_offers b (st := .queued) nofun s).trans (State.tu_offers (.of_mem fun x hx => ?_))
  rw [Tu.mem_entries] at hx ⊢
  rw [List.mem_append]
  exact hx.imp_right (.imp_left .inl)

/-- A routine offer's entry stands last of the routine ones (R118). -/
theorem State.queueRoutine_offers (b : Fin 8) (mark : OriginMark) (s : State) :
    s.OffersQuietly (s.queueRoutine b mark) := by
  refine (State.moveBuf_offers b (st := .queued) nofun s).trans (State.tu_offers (.of_mem fun x hx => ?_))
  rw [Tu.mem_entries] at hx ⊢
  rw [List.mem_append]
  exact hx.imp_right (.imp_right .inl)

theorem State.accept_routine_offers (b : Fin 8) (mark : OriginMark) (s : State) :
    s.OffersQuietly (s.accept b mark .routine) :=
  (State.queueRoutine_offers b mark s).trans (State.select_offers _)

theorem State.accept_offers (b : Fin 8) (mark : OriginMark) (c : FrameClass) (s : State) :
    s.Offers (s.accept b mark c) := by
  cases c with
  | urgent =>
    exact (((State.queueUrgent_offers b mark s).toOffers.trans (State.preempt_offers _)).trans
      (State.select_offers _).toOffers).trans (State.startWatch_offers _).toOffers
  | routine => exact (State.accept_routine_offers b mark s).toOffers

/-- The offered entry stands in the transmit unit (R118). -/
theorem State.accept_entry (b : Fin 8) (mark : OriginMark) (c : FrameClass) (s : State) :
    ∃ y ∈ (s.accept b mark c).tu.entries, y.buf = b ∧ y.mark = mark := by
  cases c with
  | urgent =>
    have taken := ((State.preempt_offers (s.queueUrgent b mark)).trans (State.select_offers _).toOffers).trans
      (State.startWatch_offers _).toOffers
    exact taken.entries { buf := b, mark := mark, deferrals := none, strikes := 0, headTime := none }
      (Tu.mem_entries.2 (.inr (.inl (List.mem_append_right _ List.mem_cons_self))))
  | routine =>
    exact (State.select_offers (s.queueRoutine b mark)).entries
      { buf := b, mark := mark, deferrals := some 0, strikes := 0, headTime := none }
      (Tu.mem_entries.2 (.inr (.inr (List.mem_append_right _ List.mem_cons_self))))

/-- A FREE buffer is filled. -/
theorem State.setBuf_offers {b : Fin 8} {s : State} (free : (s.buf b).state = .free) (x : Buffer) :
    s.OffersQuietly (s.setBuf b x) := by
  refine ⟨⟨fun c taken => ?_, .refl _, rfl⟩, rfl, rfl, rfl⟩
  rw [State.buf_setBuf, if_neg (fun eq : c = b => taken (eq ▸ free))]
  exact ⟨taken, rfl, rfl, rfl⟩

/-! ## An origination's own frame -/

/-- An own frame made: it stands composed in a buffer that was FREE, with its entry in the transmit unit (R137). -/
def State.Made (o : OwnFrame) (s t : State) : Prop :=
  ∃ b, (s.buf b).state = .free ∧ (t.buf b).state ≠ .free ∧ (t.buf b).cls = some o.cls ∧
    (t.buf b).frame = s.composeOwn o ∧ ∃ y ∈ t.tu.entries, y.buf = b ∧ y.mark = .own

theorem State.Made.carried {o : OwnFrame} {s t u : State} (h : s.Made o t) (k : t.Offers u) : s.Made o u := by
  obtain ⟨b, free, taken, cls, frame, x, mem, buf, mark⟩ := h
  obtain ⟨taken', cls', frame', -⟩ := k.frames b taken
  obtain ⟨y, mem', buf', mark'⟩ := k.entries x mem
  exact ⟨b, free, taken', cls'.trans cls, frame'.trans frame, y, mem', buf'.trans buf, mark'.trans mark⟩

theorem State.originateBare_made {o : OwnFrame} {s t : State} (h : s.originateBare o = some t) : s.Made o t := by
  obtain ⟨-, b, free, rfl⟩ := State.originateBare_some h
  obtain ⟨pool, -⟩ := State.recordOwn_keeps o
    (s.setBuf b { state := .queued, cls := some o.cls, frame := s.composeOwn o, level := none })
  have filled := (State.buf_congr pool b).trans ((State.buf_setBuf b b _ s).trans (if_pos rfl))
  obtain ⟨taken, cls, frame, -⟩ := (State.accept_offers b .own o.cls _).frames b (by rw [filled]; nofun)
  exact ⟨b, free, taken, cls.trans (congrArg Buffer.cls filled), frame.trans (congrArg Buffer.frame filled),
    State.accept_entry b .own o.cls _⟩

/-- Frames and entries that stand are left by an origination (R137). -/
theorem State.originateBare_keeps {o : OwnFrame} {s t : State} (h : s.originateBare o = some t) :
    s.FramesKept t ∧ s.tu.Keeps t.tu := by
  obtain ⟨-, b, free, rfl⟩ := State.originateBare_some h
  obtain ⟨pool, tu⟩ := State.recordOwn_keeps o
    (s.setBuf b { state := .queued, cls := some o.cls, frame := s.composeOwn o, level := none })
  have offer := State.accept_offers b .own o.cls ((s.setBuf b
    { state := .queued, cls := some o.cls, frame := s.composeOwn o, level := none }).recordOwn o)
  refine ⟨((State.setBuf_offers free _).frames.trans (.of_eq (by rw [pool]))).trans offer.frames, ?_⟩
  have entries := offer.entries
  rw [tu] at entries
  exact entries

theorem State.originateBare_fu {o : OwnFrame} {s t : State} (h : s.originateBare o = some t) :
    t.fu = (s.recordOwn o).fu := by
  obtain ⟨-, b, -, rfl⟩ := State.originateBare_some h
  rw [(State.accept_offers _ _ _ _).fu]
  unfold State.recordOwn
  split
  · rfl
  · dsimp only
    split <;> rfl

/-- A routine origination leaves radio and guards, and of the counters what its records leave (R137, R183). -/
theorem State.originateBare_routine {o : OwnFrame} {s t : State} (h : s.originateBare o = some t)
    (routine : o.cls = .routine) : t.radio = s.radio ∧ t.guards = s.guards ∧ t.counters = (s.recordOwn o).counters := by
  obtain ⟨-, b, -, rfl⟩ := State.originateBare_some h
  have offer := State.accept_routine_offers b .own ((s.setBuf b
    { state := .queued, cls := some o.cls, frame := s.composeOwn o, level := none }).recordOwn o)
  rw [routine] at offer ⊢
  refine ⟨offer.radio.trans ?_, offer.guards.trans ?_, offer.counters.trans ?_⟩
  all_goals
    unfold State.recordOwn
    split
    · rfl
    · dsimp only
      split <;> rfl

theorem State.busyObservation_offers (s : State) : s.OffersQuietly s.busyObservation := by
  unfold State.busyObservation
  split
  · exact .refl s
  · cases made : s.originateBare .observation with
    | none => exact .refl s
    | some t =>
      obtain ⟨radio, guards, counters⟩ := State.originateBare_routine made rfl
      obtain ⟨frames, entries⟩ := State.originateBare_keeps made
      exact ⟨⟨frames, entries, State.originateBare_fu made⟩, radio, guards, counters⟩

theorem State.busy_offers (busy : Bool) (s : State) : s.OffersQuietly { s with pool := { s.pool with busy := busy } } :=
  ⟨⟨.of_eq rfl, .refl _, rfl⟩, rfl, rfl, rfl⟩

/-- The recount leaves the frames that stand, the flood unit, the radio, the guards and the counters (R112). -/
theorem State.recount_offers (s : State) : s.OffersQuietly s.recount := by
  unfold State.recount
  dsimp only
  split
  · exact (State.busy_offers _ s).trans (State.busyObservation_offers _)
  · exact State.busy_offers _ s

theorem State.originate_made {o : OwnFrame} {s t : State} (h : s.originate o = some t) : s.Made o t := by
  obtain ⟨u, made, rfl⟩ := State.originate_eq_some h
  exact (State.originateBare_made made).carried (State.recount_offers u).toOffers

theorem State.originate_keeps {o : OwnFrame} {s t : State} (h : s.originate o = some t) :
    s.FramesKept t ∧ s.tu.Keeps t.tu := by
  obtain ⟨u, made, rfl⟩ := State.originate_eq_some h
  obtain ⟨frames, entries⟩ := State.originateBare_keeps made
  have offers := State.recount_offers u
  exact ⟨frames.trans offers.frames, entries.trans offers.entries⟩

theorem State.originate_fu {o : OwnFrame} {s t : State} (h : s.originate o = some t) : t.fu = (s.recordOwn o).fu := by
  obtain ⟨u, made, rfl⟩ := State.originate_eq_some h
  rw [(State.recount_offers u).fu, State.originateBare_fu made]

theorem State.originate_routine {o : OwnFrame} {s t : State} (h : s.originate o = some t) (routine : o.cls = .routine) :
    t.radio = s.radio ∧ t.guards = s.guards ∧ t.counters = (s.recordOwn o).counters := by
  obtain ⟨u, made, rfl⟩ := State.originate_eq_some h
  obtain ⟨radio, guards, counters⟩ := State.originateBare_routine made routine
  have offers := State.recount_offers u
  exact ⟨offers.radio.trans radio, offers.guards.trans guards, offers.counters.trans counters⟩

theorem State.originate_of_can {o : OwnFrame} {s : State} (h : s.CanOriginate o.cls) : ∃ t, s.originate o = some t := by
  obtain ⟨u, made⟩ := State.originateBare_of_can h
  exact ⟨u.recount, by rw [State.originate, made]; rfl⟩

theorem State.originate_of_cannot {o : OwnFrame} {s : State} (h : ¬ s.CanOriginate o.cls) : s.originate o = none := by
  rw [State.originate, State.originateBare_of_cannot h]
  rfl

/-- The flood unit after the records of an own flood: the next sequence and the seen list (R137). -/
theorem State.recordOwn_fu {o : OwnFrame} (flood : o ≠ .observation) (s : State) : (s.recordOwn o).fu =
    { s.fu with
      seqCounter := s.fu.seqCounter + 1
      seen := (seenTake s.ms s.cfg.address s.fu.run s.fu.seqCounter s.fu.seen).2 } := by
  unfold State.recordOwn
  split
  · exact absurd rfl flood
  · dsimp only
    split <;> rfl

theorem State.recordOwn_counters {o : OwnFrame} (other : o ≠ .health) (s : State) :
    (s.recordOwn o).counters = s.counters := by
  unfold State.recordOwn
  split
  · rfl
  · dsimp only
    rw [if_neg other]

theorem State.composeOwn_flood {o : OwnFrame} (flood : o ≠ .observation) (s : State) : s.composeOwn o =
    Frame.compose s.cfg o.kind (floodHeader s.cfg s.fu.run s.fu.seqCounter s.fu.epoch ++
      o.payload s.counters (s.mu.latched.elim 0 (fun l => l.v.toNat))) := by
  unfold State.composeOwn
  split
  · exact absurd rfl flood
  · cases s.mu.latched <;> rfl

/-- An OBSERVATION asked for leaves the flood unit, the radio, the guards and the counters (R60). -/
theorem State.requestObservation_offers (s : State) : s.OffersQuietly s.requestObservation := by
  unfold State.requestObservation
  split
  · exact .refl s
  · cases made : s.originate .observation with
    | none => exact .refl s
    | some t =>
      obtain ⟨radio, guards, counters⟩ := State.originate_routine made rfl
      obtain ⟨frames, entries⟩ := State.originate_keeps made
      exact ⟨⟨frames, entries, State.originate_fu made⟩, radio, guards, counters⟩

end Sys2Proof.Machine
end

section
/-! SUPPORT. How an urgent offer is taken (R118, R119, R124, R126). -/
namespace Sys2Proof.Machine

/-! ## The watch and the selection -/

theorem State.startWatch_urgent_bufs (s : State) : s.startWatch.tu.urgent.map (·.buf) = s.tu.urgent.map (·.buf) := by
  unfold State.startWatch
  split
  · split
    · rfl
    · split
      · rename_i urgent
        rw [urgent]
        rfl
      · rfl
  · rfl

theorem State.startWatch_current_buf (s : State) : s.startWatch.tu.current.map (·.buf) = s.tu.current.map (·.buf) := by
  unfold State.startWatch
  split
  · split
    · rw [Option.map_map]
      rfl
    · split <;> rfl
  · rfl

/-- The watch's start leaves the rest of the transmit unit (R124). -/
theorem State.startWatch_tu (s : State) : s.startWatch.tu.phase = s.tu.phase ∧ s.startWatch.tu.backoff = s.tu.backoff ∧
    s.startWatch.tu.waiting = s.tu.waiting ∧ s.startWatch.tu.preambleEnd = s.tu.preambleEnd ∧
      s.startWatch.tu.routine = s.tu.routine := by
  rw [State.startWatch_rest]
  exact ⟨rfl, rfl, rfl, rfl, rfl⟩

theorem State.startWatch_buf (s : State) (c : Fin 8) : s.startWatch.buf c = s.buf c :=
  State.buf_congr (State.startWatch_keeps s).1 c

/-- The watch as an offer leaves it (R124). -/
def Watch.started (now : Us) (w : Watch) : Watch := if w = .stopped then .running (now + 10000000) else w

/-- With a leading urgent frame the watch runs (R124). -/
theorem State.startWatch_watch {s : State} (h : s.currentLeads = true ∨ s.tu.urgent ≠ []) :
    s.startWatch.tu.watch = s.tu.watch.started s.now := by
  unfold State.startWatch
  split
  · rename_i stopped
    rw [stopped]
    split
    · rfl
    · rename_i behind
      split
      · rfl
      · rename_i none
        exact absurd (h.resolve_left behind) fun other => other none
  · rename_i other
    exact (if_neg other).symm

/-- What selecting an urgent head leaves (R119, R121). -/
theorem State.select_head {s : State} {e : TxEntry} {rest : List TxEntry} (can : s.CanSelect) (urgent : s.tu.urgent = e :: rest)
    (cls : (s.buf e.buf).cls = some .urgent) : ∃ k : Nat, 1 ≤ k ∧ k ≤ 4 ∧
      s.select.tu = { s.tu with
        current := some e, urgent := rest, phase := .backoff, waiting := false, backoff := some (s.now + 5000 * k) } ∧
      (∀ c, c ≠ e.buf → s.select.buf c = s.buf c) ∧ s.select.currentLeads = true := by
  obtain ⟨k, low, high, backoff⟩ := State.takeEntry_urgent (e := e) (s := { s with tu := { s.tu with urgent := rest } }) cls
  have taken := State.select_urgent can urgent
  refine ⟨k, low, high, ?_, fun c other => ?_, ?_⟩
  · rw [taken, ← backoff]
    rfl
  · rw [taken, State.takeEntry_buf, if_neg other]
    rfl
  · rw [taken, State.currentLeads, Bool.and_eq_true]
    exact ⟨(State.takeEntry_currentIs .urgent e _).trans (decide_eq_true cls), rfl⟩

/-! ## The offer -/

/-- What an urgent offer of buffer `b` rests on: `b` is of the urgent class and not the frame in progress, and the urgent queue
holds urgent frames. -/
structure State.OffersUrgent (b : Fin 8) (u : State) : Prop where
  cls : (u.buf b).cls = some .urgent
  current : ∀ x ∈ u.tu.current, x.buf ≠ b
  urgent : ∀ x ∈ u.tu.urgent, (u.buf x.buf).cls = some .urgent

section offer

variable {b : Fin 8} {mark : OriginMark} {u : State}

theorem State.queueUrgent_cls (b c : Fin 8) (mark : OriginMark) (u : State) :
    ((u.queueUrgent b mark).buf c).cls = (u.buf c).cls := State.cls_moveBuf _ _ _ _

/-- The urgent queue with the offer at its end is of the urgent class. -/
theorem State.OffersUrgent.queued (h : u.OffersUrgent b) :
    ∀ x ∈ (u.queueUrgent b mark).tu.urgent, ((u.queueUrgent b mark).buf x.buf).cls = some .urgent := by
  intro x mem
  rw [State.queueUrgent_cls]
  obtain mem | mem := List.mem_append.1 mem
  · exact h.urgent x mem
  · rw [List.mem_singleton.1 mem]
    exact h.cls

theorem State.queueUrgent_ne_nil : (u.queueUrgent b mark).tu.urgent ≠ [] := List.append_ne_nil_of_right_ne_nil _ nofun

/-- No preemption where the frame in progress is not a routine one before its body (R126). -/
theorem State.preempt_of_not {s : State} (h : ¬ (s.currentIs .routine = true ∧
    (s.tu.phase = .backoff ∨ s.tu.phase = .assess ∨ s.tu.phase = .preamble))) : s.preempt = s := if_neg h

/-- A routine frame before its body is preempted (R126). -/
theorem State.preempt_of {s : State} {x : TxEntry} (current : s.tu.current = some x)
    (cls : (s.buf x.buf).cls = some .routine)
    (phase : s.tu.phase = .backoff ∨ s.tu.phase = .assess ∨ s.tu.phase = .preamble) :
    s.preempt = (s.heldBack x).count .txPreempted := by
  rw [State.preempt, if_pos ⟨(State.currentIs_of current).trans (decide_eq_true cls), phase⟩,
    State.stopOperation_returnCurrent current (by rw [cls]; nofun)]

theorem State.preempt_urgent_watch (s : State) : s.preempt.tu.urgent = s.tu.urgent ∧ s.preempt.tu.watch = s.tu.watch ∧
    ∀ c, (s.preempt.buf c).cls = (s.buf c).cls := by
  by_cases h : s.currentIs .routine = true ∧ (s.tu.phase = .backoff ∨ s.tu.phase = .assess ∨ s.tu.phase = .preamble)
  · obtain ⟨routine, phase⟩ := h
    obtain ⟨x, current, cls⟩ := State.currentIs_iff.1 routine
    rw [State.preempt_of current cls phase]
    exact ⟨rfl, rfl, fun c => State.cls_moveBuf x.buf c .queued s⟩
  · rw [State.preempt_of_not h]
    exact ⟨rfl, rfl, fun _ => rfl⟩

/-- After an urgent offer the watch runs or has expired (R124), and the unit cannot select. -/
theorem State.accept_urgent_watch (h : u.OffersUrgent b) :
    (u.accept b mark .urgent).tu.watch = u.tu.watch.started u.now ∧ ¬ (u.accept b mark .urgent).CanSelect := by
  rw [State.accept_urgent]
  generalize eq : (u.queueUrgent b mark).preempt = p
  obtain ⟨urgent, watch, classes⟩ := State.preempt_urgent_watch (u.queueUrgent b mark)
  have now := (State.preempt_frame (u.queueUrgent b mark)).now
  rw [eq] at urgent watch classes now
  have nonempty : p.tu.urgent ≠ [] := by
    rw [urgent]
    exact State.queueUrgent_ne_nil
  by_cases can : p.CanSelect
  · obtain ⟨e, rest, head⟩ := List.exists_cons_of_ne_nil nonempty
    have cls : (p.buf e.buf).cls = some .urgent := by
      rw [classes]
      exact h.queued e (by rw [← urgent, head]; exact List.mem_cons_self)
    obtain ⟨k, -, -, tu, -, leads⟩ := State.select_head can head cls
    refine ⟨?_, fun again => ?_⟩
    · rw [State.startWatch_watch (.inl leads), tu, (State.select_frame p).now]
      change p.tu.watch.started p.now = _
      rw [watch, now]
      rfl
    · have current := State.startWatch_current_buf p.select
      rw [again.2.1, tu] at current
      exact Option.some_ne_none _ current.symm
  · rw [State.select_of_not can]
    refine ⟨?_, fun again => can ⟨?_, ?_, ?_⟩⟩
    · rw [State.startWatch_watch (.inr nonempty), watch, now]
      rfl
    · have := again.1
      rw [State.startWatch_rest] at this
      exact this
    · have current := State.startWatch_current_buf p
      rw [again.2.1] at current
      exact Option.map_eq_none_iff.1 current.symm
    · have := again.2.2
      rw [State.startWatch_rest] at this
      exact this

/-- A FREE count and a queue place taken besides: the entry, once offered, of a selected urgent queue (R119). -/
theorem State.accept_selected {p : State} {e : TxEntry} {rest : List TxEntry} (head : p.tu.urgent = e :: rest)
    (tu : p.select.tu.current = some e ∧ p.select.tu.urgent = rest) :
    let t := p.select.startWatch
    (t.tu.current.toList ++ t.tu.urgent).map (·.buf) = p.tu.urgent.map (·.buf) ∧ t.tu.current ≠ none := by
  intro t
  have current := State.startWatch_current_buf p.select
  have urgent := State.startWatch_urgent_bufs p.select
  rw [tu.1] at current
  rw [tu.2] at urgent
  obtain ⟨y, eq, buf⟩ := Option.map_eq_some_iff.1 current
  change t.tu.current = some y at eq
  change t.tu.urgent.map (·.buf) = _ at urgent
  rw [eq, head, List.map_append, urgent]
  exact ⟨congrArg (· :: _) buf, nofun⟩

/-- How an urgent offer is taken (R118, R119, R124, R126). -/
theorem State.accept_urgentTaken (h : u.OffersUrgent b) : u.UrgentTaken b (u.accept b mark .urgent) := by
  obtain ⟨watch, -⟩ := State.accept_urgent_watch (mark := mark) h
  have now := (State.accept_frame b mark .urgent u).now
  have place : (u.queueUrgent b mark).tu.urgent.map (·.buf) = u.tu.urgent.map (·.buf) ++ [b] := List.map_append
  refine ⟨fun x current cls' phase owner => ?_, fun x current goes => ?_, fun current phase owner => ?_, ?_⟩
  · rw [State.accept_urgent, State.preempt_of (x := x) (s := u.queueUrgent b mark) current
      ((State.queueUrgent_cls b x.buf mark u).trans cls') phase]
    generalize eq : ((u.queueUrgent b mark).heldBack x).count .txPreempted = p
    have nonempty : p.tu.urgent ≠ [] := by
      rw [← eq]
      exact State.queueUrgent_ne_nil
    obtain ⟨e, rest, head⟩ := List.exists_cons_of_ne_nil nonempty
    have can : p.CanSelect := by
      rw [← eq]
      refine ⟨rfl, rfl, ?_⟩
      change u.radioReleased.owner ≠ _
      rw [State.radioReleased]
      split
      · nofun
      · exact owner
    have eCls : ((u.queueUrgent b mark).buf e.buf).cls = some .urgent := h.queued e (by
      have : (u.queueUrgent b mark).tu.urgent = p.tu.urgent := by rw [← eq]; rfl
      rw [this, head]
      exact List.mem_cons_self)
    have pBuf (c : Fin 8) : p.buf c = if c = x.buf then { (u.queueUrgent b mark).buf x.buf with state := .queued }
        else (u.queueUrgent b mark).buf c := by
      rw [← eq]
      exact State.buf_setBuf x.buf c _ _
    have cls : (p.buf e.buf).cls = some .urgent := by
      rw [pBuf]
      split
      · rename_i same
        rw [← same]
        exact eCls
      · exact eCls
    obtain ⟨k, low, high, tu, bufs, -⟩ := State.select_head can head cls
    obtain ⟨phase', backoff', waiting', preamble', routine'⟩ := State.startWatch_tu p.select
    have offers := p.select_offers.trans p.select.startWatch_offers
    have selected := State.accept_selected head (by rw [tu]; exact ⟨rfl, rfl⟩)
    have other : x.buf ≠ e.buf := fun same => by
      rw [← same, State.queueUrgent_cls, cls'] at eCls
      cases eCls
    refine ⟨⟨?_, ?_, ?_, ?_, ?_, ?_, ?_, ?_, k, low, high, ?_⟩, ?_⟩
    · rw [routine', tu, ← eq]
      exact List.prefix_rfl
    · rw [State.startWatch_buf, bufs _ other, pBuf, if_pos rfl, State.buf_queueUrgent, State.buf_moveBuf,
        if_neg (h.current x current)]
    · rw [offers.guards, ← eq]
      rfl
    · rw [offers.radio, ← eq]
      rfl
    · rw [State.counter, offers.counters, ← eq]
      exact State.count_counter .txPreempted u
    · rw [phase', tu]
    · rw [waiting', tu]
    · rw [preamble', tu, ← eq]
      rfl
    · rw [backoff', tu, (State.startWatch_frame _).now, (State.select_frame _).now]
    · rw [← place]
      have : (u.queueUrgent b mark).tu.urgent = p.tu.urgent := by rw [← eq]; rfl
      rw [this]
      exact selected
  · have stays : u.queueUrgent b mark = (u.queueUrgent b mark).preempt.select := by
      rw [State.preempt_of_not, State.select_of_not]
      · intro can
        have := can.2.1
        cases current.symm.trans this
      · rintro ⟨routine, phase⟩
        obtain ⟨y, hy, cls⟩ := State.currentIs_iff.1 routine
        cases current.symm.trans hy
        rw [State.queueUrgent_cls] at cls
        obtain urgent | body := goes
        · cases urgent.symm.trans cls
        · have phase' : u.tu.phase = .backoff ∨ u.tu.phase = .assess ∨ u.tu.phase = .preamble := phase
          rw [body] at phase'
          obtain k | k | k := phase' <;> cases k
    rw [State.accept_urgent, ← stays]
    obtain ⟨phase', backoff', -, -, -⟩ := State.startWatch_tu (u.queueUrgent b mark)
    have offers := (u.queueUrgent b mark).startWatch_offers
    refine ⟨?_, ?_, ?_, phase', backoff', offers.guards, offers.radio, ?_⟩
    · rw [State.startWatch_current_buf]
      exact congrArg _ current
    · rw [State.startWatch_urgent_bufs, place]
    · rw [State.startWatch_buf, State.buf_queueUrgent, State.buf_moveBuf, if_neg (h.current x current)]
    · rw [State.counter, offers.counters]
      rfl
  · have stays : (u.queueUrgent b mark).preempt = u.queueUrgent b mark := by
      refine State.preempt_of_not ?_
      rintro ⟨routine, -⟩
      obtain ⟨y, hy, -⟩ := State.currentIs_iff.1 routine
      cases (show u.tu.current = some y from hy).symm.trans current
    obtain ⟨e, rest, head⟩ := List.exists_cons_of_ne_nil (State.queueUrgent_ne_nil (b := b) (mark := mark) (u := u))
    obtain ⟨k, -, -, tu, -, -⟩ := State.select_head (s := u.queueUrgent b mark) ⟨phase, current, owner⟩ head
      (h.queued e (by rw [head]; exact List.mem_cons_self))
    have selected := State.accept_selected head (by rw [tu]; exact ⟨rfl, rfl⟩)
    obtain ⟨phase', -, -, -, -⟩ := State.startWatch_tu (u.queueUrgent b mark).select
    have offers := (u.queueUrgent b mark).select_offers.trans (State.startWatch_offers _)
    rw [State.accept_urgent, stays, ← place]
    refine ⟨selected, ?_, offers.guards, offers.radio, ?_⟩
    · rw [phase', tu]
    · rw [State.counter, offers.counters]
      rfl
  · rw [now]
    exact watch

end offer

/-! ## The busy flag's OBSERVATION after the offer (R112) -/

/-- Where the unit cannot select, the recount adds at most a routine entry and takes at most a FREE buffer (R112). -/
structure State.Recounted (s t : State) : Prop where
  now : t.now = s.now
  more : ∃ more, t.tu = { s.tu with routine := s.tu.routine ++ more }
  taken : ∀ c, (s.buf c).state ≠ .free → t.buf c = s.buf c
  quiet : s.OffersQuietly t

/-- The flag as the recount leaves it (R112). -/
def State.flagged (s : State) : State := { s with pool := { s.pool with busy := busyAfter s.pool.busy s.pool.freeCount } }

/-- An OBSERVATION composed in a FREE buffer (R60, R137). -/
def State.observationIn (b : Fin 8) (s : State) : State :=
  s.setBuf b { state := .queued, cls := some .routine, frame := s.composeOwn .observation, level := none }

/-- The recount sets the flag, and at its raising may make an OBSERVATION (R112). -/
theorem State.recount_cases (s : State) : s.recount = s.flagged ∨ ∃ b, (s.buf b).state = .free ∧
    s.flagged.CanOriginate .routine ∧ s.recount = (s.flagged.observationIn b).accept b .own .routine := by
  unfold State.recount
  dsimp only
  split
  · unfold State.busyObservation
    split
    · exact .inl rfl
    · cases made : State.originateBare .observation s.flagged with
      | none => exact .inl (congrArg (Option.getD · _) made)
      | some t =>
        obtain ⟨can, b, free, rfl⟩ := State.originateBare_some made
        exact .inr ⟨b, free, can, congrArg (Option.getD · _) made⟩
  · exact .inl rfl

theorem State.recount_recounted {s : State} (cannot : ¬ s.CanSelect) : s.Recounted s.recount := by
  obtain eq | ⟨b, free, -, eq⟩ := State.recount_cases s
  · rw [eq]
    exact ⟨rfl, ⟨[], by rw [List.append_nil]; rfl⟩, fun _ _ => rfl, State.busy_offers _ s⟩
  · have routine : s.recount = (s.flagged.observationIn b).queueRoutine b .own := by
      rw [eq, State.accept_routine]
      exact State.select_of_not cannot
    have quiet := State.recount_offers s
    rw [routine] at quiet ⊢
    refine ⟨rfl, ⟨_, rfl⟩, fun c taken => ?_, quiet⟩
    have other : c ≠ b := fun same => taken (same ▸ free)
    exact (State.buf_moveBuf b c .queued (s.flagged.observationIn b)).trans
      ((if_neg other).trans ((State.buf_setBuf b c _ s.flagged).trans (if_neg other)))

/-- The recount leaves an urgent offer taken as it was. -/
theorem State.UrgentTaken.recounted {b : Fin 8} {s t u : State} (h : s.UrgentTaken b t)
    (held : ∀ x ∈ s.tu.current, (t.buf x.buf).state ≠ .free) (k : t.Recounted u) : s.UrgentTaken b u := by
  obtain ⟨preempted, goes, selected, watch⟩ := h
  obtain ⟨now, ⟨more, tu⟩, taken, quiet⟩ := k
  have counter : u.counter .txPreempted = t.counter .txPreempted := by rw [State.counter, State.counter, quiet.counters]
  refine ⟨fun x current cls phase owner => ?_, fun x current go => ?_, fun none phase owner => ?_, ?_⟩
  · obtain ⟨⟨queue, buf, guards, radio, count, rest⟩, place, some⟩ := preempted x current cls phase owner
    refine ⟨⟨?_, (taken _ (held x current)).trans buf, quiet.guards.trans guards, quiet.radio.trans radio,
      counter.trans count, ?_⟩, ?_, ?_⟩
    · rw [tu]
      exact queue.trans (List.prefix_append _ _)
    · rw [tu, now]
      exact rest
    · rw [tu]
      exact place
    · rw [tu]
      exact some
  · obtain ⟨buf, urgent, same, phase, backoff, guards, radio, count⟩ := goes x current go
    rw [tu]
    exact ⟨buf, urgent, (taken _ (held x current)).trans same, phase, backoff, quiet.guards.trans guards,
      quiet.radio.trans radio, counter.trans count⟩
  · obtain ⟨place, backoff, guards, radio, count⟩ := selected none phase owner
    rw [tu]
    exact ⟨place, backoff, quiet.guards.trans guards, quiet.radio.trans radio, counter.trans count⟩
  · rw [tu, now]
    exact watch

/-- An offer taken before other blocks change is taken all the same. -/
theorem State.UrgentTaken.of_before {b : Fin 8} {s u t : State} (h : u.UrgentTaken b t) (tu : u.tu = s.tu)
    (radio : u.radio = s.radio) (guards : u.guards = s.guards) (su : u.su = s.su)
    (counter : u.counter .txPreempted = s.counter .txPreempted) (bufs : ∀ x ∈ s.tu.current, u.buf x.buf = s.buf x.buf) :
    s.UrgentTaken b t := by
  have released : u.radioReleased = s.radioReleased := by rw [State.radioReleased, State.radioReleased, radio, su]
  obtain ⟨preempted, goes, selected, watch⟩ := h
  refine ⟨fun x current cls phase owner => ?_, fun x current go => ?_, fun none phase owner => ?_, ?_⟩
  · have buf := bufs x current
    have := preempted x (by rw [tu]; exact current) (by rw [buf]; exact cls) (by rw [tu]; exact phase)
      (by rw [radio]; exact owner)
    rw [State.Preempted, ← State.radioReleased, released, tu, guards, counter, buf] at this
    exact this
  · have buf := bufs x current
    have := goes x (by rw [tu]; exact current) (by rw [buf, tu]; exact go)
    rw [tu, radio, guards, counter, buf] at this
    exact this
  · have := selected (by rw [tu]; exact none) (by rw [tu]; exact phase) (by rw [radio]; exact owner)
    rw [tu, radio, guards, counter] at this
    exact this
  · rw [tu] at watch
    exact watch

theorem State.UrgentTaken.finish {b : Fin 8} {s0 s t : State} (h : s.UrgentTaken b t) :
    s.UrgentTaken b (State.finish s0 t) := by
  simpa only [State.UrgentTaken, State.Preempted, State.finish_tu, State.finish_buf, State.finish_guards, State.finish_radio,
    State.finish_counter, State.finish_now] using h

/-! ## Own urgent floods (R137) -/

/-- An origination's records are the flood unit's and the counters (R137, R183). -/
theorem State.recordOwn_eq (o : OwnFrame) (s : State) :
    s.recordOwn o = { s with fu := (s.recordOwn o).fu, counters := (s.recordOwn o).counters } := by
  unfold State.recordOwn
  split
  · rfl
  · dsimp only
    split <;> rfl

/-- In a sound pool an urgent origination's offer is taken as every urgent offer (R118, R137). -/
theorem State.originate_urgentTaken {o : OwnFrame} {s t : State} (entries : s.EntriesHeld) (urgent : o.cls = .urgent)
    (h : s.originate o = some t) : ∃ b, (s.buf b).state = .free ∧ (t.buf b).cls = some .urgent ∧
      (t.buf b).frame = s.composeOwn o ∧ s.UrgentTaken b t := by
  obtain ⟨v, bare, rfl⟩ := State.originate_eq_some h
  obtain ⟨-, b, free, rfl⟩ := State.originateBare_some bare
  have other : o ≠ .health := by rintro rfl; cases urgent
  generalize filled : s.setBuf b { state := .queued, cls := some o.cls, frame := s.composeOwn o, level := none } = v
  have buf (c : Fin 8) : (v.recordOwn o).buf c =
      if c = b then { state := .queued, cls := some o.cls, frame := s.composeOwn o, level := none } else s.buf c := by
    rw [State.buf_congr (State.recordOwn_keeps o v).1, ← filled, State.buf_setBuf]
  have apart (c : Fin 8) (taken : (s.buf c).state ≠ .free) : c ≠ b := fun same => taken (same ▸ free)
  have tu : (v.recordOwn o).tu = s.tu := by rw [(State.recordOwn_keeps o v).2, ← filled]; rfl
  have offer : (v.recordOwn o).OffersUrgent b := by
    refine ⟨?_, ?_, ?_⟩
    · rw [buf, if_pos rfl, urgent]
    · rw [tu]
      exact fun x mem => apart _ (entries.current x mem)
    · rw [tu]
      intro x mem
      obtain ⟨taken, cls⟩ := entries.urgent x mem
      rw [buf, if_neg (apart _ taken)]
      exact cls
  rw [urgent]
  have offers := State.accept_offers b .own .urgent (v.recordOwn o)
  obtain ⟨bTaken, bCls, bFrame, -⟩ := offers.frames b (by rw [buf, if_pos rfl]; nofun)
  have recount := State.recount_recounted (State.accept_urgent_watch (mark := .own) offer).2
  have bEnd := recount.taken b bTaken
  refine ⟨b, free, ?_, ?_, ?_⟩
  · rw [bEnd, bCls, buf, if_pos rfl, urgent]
  · rw [bEnd, bFrame, buf, if_pos rfl]
  · refine ((State.accept_urgentTaken offer).of_before tu ?_ ?_ ?_ ?_ ?_).recounted ?_ recount
    · rw [State.recordOwn_eq, ← filled]
      rfl
    · rw [State.recordOwn_eq, ← filled]
      rfl
    · rw [State.recordOwn_eq, ← filled]
      rfl
    · rw [State.counter, State.recordOwn_counters other, ← filled]
      rfl
    · exact fun x mem => by rw [buf, if_neg (apart _ (entries.current x mem))]
    · exact fun x mem => (offers.frames _ (by
        rw [buf, if_neg (apart _ (entries.current x mem))]
        exact entries.current x mem)).1

end Sys2Proof.Machine
end

section
/-! SUPPORT. What the requests for a profile, a FIRE, a PROFILE and a HEALTH bring, and the timers that ask for them. -/
namespace Sys2Proof.Machine

/-! ## Status records and profiles (R53 to R57, R195) -/

/-- A status record changes the line unit alone (R195). -/
theorem State.panelRecord_eq (type : RecordType) (origin : Addr) (zone code detail : Byte) (s : State) :
    s.panelRecord type origin zone code detail = { s with lu := (s.panelRecord type origin zone code detail).lu } := by
  unfold State.panelRecord
  split <;> rfl

theorem State.panelRecord_offers (type : RecordType) (origin : Addr) (zone code detail : Byte) (s : State) :
    s.OffersQuietly (s.panelRecord type origin zone code detail) := by
  rw [State.panelRecord_eq]
  exact ⟨⟨.of_eq rfl, .refl _, rfl⟩, rfl, rfl, rfl⟩

/-- The detection record after a profile has been taken into force (R55). -/
def Detection.inForce (now : Us) (p : Profile) (d : Detection) : Detection :=
  { d with profile := p, serviceLimit := if p = .service then some (now + 14400000000) else none }

theorem State.takeProfile_frame (p : Profile) (s : State) :
    State.FaultFrame { s with det := s.det.inForce s.now p } (s.takeProfile p) :=
  (State.requestObservation_frame _).fault.trans (State.panelRecord_frame _ _ _ _ _ _)

theorem State.takeProfile_offers (p : Profile) (s : State) : s.OffersQuietly (s.takeProfile p) := by
  have asked := (State.requestObservation_offers { s with det := s.det.inForce s.now p }).trans
    (State.panelRecord_offers .profile s.cfg.address s.cfg.zone p.code 0 _)
  exact { asked with }

/-- The detection record after a profile request (R54): outside VERIFY the profile is in force, its limit running for SERVICE;
in VERIFY it is pending, or restarts the limit of the one in force. -/
def Detection.requested (applies : Bool) (now : Us) (p : Profile) (d : Detection) : Detection :=
  if applies then
    if d.state = .verify then
      if p = d.profile then
        { d with pendingProfile := none
                 serviceLimit := if p = .service then some (now + 14400000000) else d.serviceLimit }
      else { d with pendingProfile := some p }
    else if p = d.profile then
      { d with serviceLimit := if p = .service then some (now + 14400000000) else d.serviceLimit }
    else d.inForce now p
  else d

/-- A profile request changes the detection record, and what its OBSERVATION and status record bring (R54, R55). -/
theorem State.profileRequest_frame (p : Profile) (s : State) :
    State.FaultFrame { s with det := s.det.requested s.cfg.serviceApplies s.now p } (s.profileRequest p) := by
  unfold State.profileRequest Detection.requested
  split
  · split
    · split
      · exact .refl _
      · exact .refl _
    · split
      · split
        · exact .refl _
        · exact .refl _
      · exact State.takeProfile_frame p s
  · exact .refl _

theorem State.profileRequest_offers (p : Profile) (s : State) : s.OffersQuietly (s.profileRequest p) := by
  have det (d : Detection) : s.OffersQuietly { s with det := d } := ⟨⟨.of_eq rfl, .refl _, rfl⟩, rfl, rfl, rfl⟩
  unfold State.profileRequest
  split
  · split
    · split
      · exact det _
      · exact det _
    · split
      · split
        · exact det _
        · exact .refl _
      · exact State.takeProfile_offers p s
  · exact .refl _

theorem State.SameDetection.trans {s t u : State} (h : s.SameDetection t) (k : t.SameDetection u) : s.SameDetection u :=
  ⟨k.mu.trans h.mu, k.ev.trans h.ev, k.det.trans h.det, k.nt.trans h.nt, k.sc.trans h.sc, k.fires.trans h.fires,
    k.overflow.trans h.overflow, k.epoch.trans h.epoch⟩

/-- What an own flood takes and brings: the next sequence, and its frame composed in a buffer that was FREE (R137). -/
theorem State.originate_flood {o : OwnFrame} {s t : State} (h : s.originate o = some t) (flood : o ≠ .observation) :
    t.fu = { s.fu with
      seqCounter := s.fu.seqCounter + 1
      seen := (seenTake s.ms s.cfg.address s.fu.run s.fu.seqCounter s.fu.seen).2 } ∧
    ∃ b, (s.buf b).state = .free ∧ (t.buf b).state ≠ .free ∧ (t.buf b).cls = some o.cls ∧
      (t.buf b).frame = Frame.compose s.cfg o.kind (floodHeader s.cfg s.fu.run s.fu.seqCounter s.fu.epoch ++
        o.payload s.counters (s.mu.latched.elim 0 (fun l => l.v.toNat))) := by
  obtain ⟨b, free, taken, cls, frame, -⟩ := State.originate_made h
  exact ⟨(State.originate_fu h).trans (State.recordOwn_fu flood s), b, free, taken, cls,
    frame.trans (State.composeOwn_flood flood s)⟩

/-- What an own urgent flood brings (R137), with its offer as every urgent one where no entry stands in a FREE buffer. -/
theorem State.originate_urgent {o : OwnFrame} {s t : State} (h : s.originate o = some t) (flood : o ≠ .observation)
    (urgent : o.cls = .urgent) : ∃ b, (s.buf b).state = .free ∧ (t.buf b).cls = some .urgent ∧
      (t.buf b).frame = Frame.compose s.cfg o.kind (floodHeader s.cfg s.fu.run s.fu.seqCounter s.fu.epoch ++
        o.payload s.counters (s.mu.latched.elim 0 (fun l => l.v.toNat))) ∧ (s.EntriesHeld → s.UrgentTaken b t) := by
  by_cases held : s.EntriesHeld
  · obtain ⟨b, free, cls, frame, taken⟩ := State.originate_urgentTaken held urgent h
    exact ⟨b, free, cls, frame.trans (State.composeOwn_flood flood s), fun _ => taken⟩
  · obtain ⟨-, b, free, -, cls, frame⟩ := State.originate_flood h flood
    exact ⟨b, free, cls.trans (congrArg some urgent), frame, fun k => absurd k held⟩

/-! ## Requests that are made or stay pending (R138) -/

section asks

variable {s : State}

theorem State.askFire_of_can (c : FireCause) (e : Nat) (h : s.CanOriginate .urgent) :
    ∃ t, s.originate (.fire c e) = some t ∧ s.askFire c e = t := by
  obtain ⟨t, made⟩ := State.originate_of_can (o := .fire c e) h
  exact ⟨t, made, by rw [State.askFire, made]⟩

/-- Whether a FIRE is pending (R138). -/
def Waiter.isFire : Waiter → Bool
  | .fire _ _ => true
  | _ => false

theorem State.askFire_of_cannot (c : FireCause) (e : Nat) (h : ¬ s.CanOriginate .urgent) : s.askFire c e =
    if s.fu.waiters.any Waiter.isFire then s else s.joinWaiters (.fire c e) := by
  rw [State.askFire, State.originate_of_cannot (o := .fire c e) h]
  rfl

theorem State.askSilence_of_can (h : s.CanOriginate .urgent) :
    ∃ t, s.originate .silence = some t ∧ s.askSilence = t := by
  obtain ⟨t, made⟩ := State.originate_of_can (o := .silence) h
  exact ⟨t, made, by rw [State.askSilence, made]⟩

theorem State.askSilence_of_cannot (h : ¬ s.CanOriginate .urgent) : s.askSilence =
    if s.fu.waiters.contains .silence then s else s.joinWaiters .silence := by
  rw [State.askSilence, State.originate_of_cannot (o := .silence) h]

theorem State.askReset_of_can (h : s.CanOriginate .urgent) :
    ∃ t, s.originate .reset = some t ∧ s.askReset = t := by
  obtain ⟨t, made⟩ := State.originate_of_can (o := .reset) h
  exact ⟨t, made, by rw [State.askReset, made]⟩

theorem State.askProfile_of_can (p : Profile) (h : s.CanOriginate .routine) :
    ∃ t, s.originate (.profile p) = some t ∧ s.askProfile p = t := by
  obtain ⟨t, made⟩ := State.originate_of_can (o := .profile p) h
  exact ⟨t, made, by rw [State.askProfile, made]⟩

theorem State.askProfile_of_cannot (p : Profile) (h : ¬ s.CanOriginate .routine) :
    s.askProfile p = { s with fu := { s.fu with pendingProfile := some p } } := by
  rw [State.askProfile, State.originate_of_cannot (o := .profile p) h]

theorem State.askHealth_of_can (h : s.CanOriginate .routine) :
    ∃ t, s.originate .health = some t ∧ s.askHealth = t := by
  obtain ⟨t, made⟩ := State.originate_of_can (o := .health) h
  exact ⟨t, made, by rw [State.askHealth, made]⟩

theorem State.askHealth_of_cannot (h : ¬ s.CanOriginate .routine) :
    s.askHealth = { s with fu := { s.fu with pendingHealth := true } } := by
  rw [State.askHealth, State.originate_of_cannot (o := .health) h]

end asks

/-! ## What routine originations and reports leave -/

theorem State.select_watch (s : State) : s.select.tu.watch = s.tu.watch := by
  unfold State.select
  split
  · split
    · rfl
    · split
      · split <;> rfl
      · rfl
  · rfl

theorem State.accept_routine_watch (b : Fin 8) (mark : OriginMark) (s : State) :
    (s.accept b mark .routine).tu.watch = s.tu.watch := State.select_watch _

theorem State.recount_watch (s : State) : s.recount.tu.watch = s.tu.watch := by
  obtain eq | ⟨b, -, -, eq⟩ := State.recount_cases s
  · rw [eq]
    rfl
  · rw [eq, State.accept_routine_watch]
    rfl

/-- A routine origination that zeroes no counters, a look, a raise and a clear leave the frames and entries that stand, the
flood unit but for its sequence and seen list, the radio, the guards, the counters and the watch. -/
structure State.Reports (s t : State) : Prop where
  frames : s.FramesKept t
  entries : s.tu.Keeps t.tu
  fu : t.fu = { s.fu with seqCounter := t.fu.seqCounter, seen := t.fu.seen }
  radio : t.radio = s.radio
  guards : t.guards = s.guards
  counters : t.counters = s.counters
  watch : t.tu.watch = s.tu.watch

theorem State.Reports.refl (s : State) : s.Reports s := ⟨.refl s, .refl _, rfl, rfl, rfl, rfl, rfl⟩

theorem State.Reports.trans {s t u : State} (h : s.Reports t) (k : t.Reports u) : s.Reports u :=
  ⟨h.frames.trans k.frames, h.entries.trans k.entries, by rw [k.fu, h.fu], k.radio.trans h.radio, k.guards.trans h.guards,
    k.counters.trans h.counters, k.watch.trans h.watch⟩

theorem State.OffersQuietly.reports {s t : State} (h : s.OffersQuietly t) (watch : t.tu.watch = s.tu.watch) : s.Reports t :=
  ⟨h.frames, h.entries, by rw [h.fu], h.radio, h.guards, h.counters, watch⟩

/-- Blocks apart from the transmit path changed. -/
theorem State.Reports.of_eq {s t : State} (pool : t.pool = s.pool) (tu : t.tu = s.tu) (fu : t.fu = s.fu)
    (radio : t.radio = s.radio) (guards : t.guards = s.guards) (counters : t.counters = s.counters) : s.Reports t :=
  ⟨.of_eq (by rw [pool]), by rw [tu]; exact .refl _, by rw [fu], radio, guards, counters, by rw [tu]⟩

theorem State.select_reports (s : State) : s.Reports s.select := (State.select_offers s).reports (State.select_watch s)

theorem State.recount_reports (s : State) : s.Reports s.recount := (State.recount_offers s).reports (State.recount_watch s)

theorem State.originate_reports {o : OwnFrame} {s t : State} (h : s.originate o = some t) (routine : o.cls = .routine)
    (other : o ≠ .health) : s.Reports t := by
  obtain ⟨frames, entries⟩ := State.originate_keeps h
  obtain ⟨radio, guards, counters⟩ := State.originate_routine h routine
  refine ⟨frames, entries, ?_, radio, guards, counters.trans (State.recordOwn_counters other s), ?_⟩
  · rw [State.originate_fu h]
    by_cases flood : o = .observation
    · rw [flood]
      rfl
    · rw [State.recordOwn_fu flood]
  · obtain ⟨u, bare, rfl⟩ := State.originate_eq_some h
    obtain ⟨-, b, -, rfl⟩ := State.originateBare_some bare
    rw [State.recount_watch, routine, State.accept_routine_watch, (State.recordOwn_keeps o _).2]
    rfl

theorem State.requestObservation_reports (s : State) : s.Reports s.requestObservation := by
  unfold State.requestObservation
  split
  · exact .refl s
  · cases made : s.originate .observation with
    | none => exact .refl s
    | some t => exact State.originate_reports made rfl nofun

theorem State.look_reports (s : State) : s.Reports s.look := by
  unfold State.look
  split
  · exact .refl s
  · split
    · rename_i made
      exact (State.originate_reports made rfl nofun).trans (.of_eq rfl rfl rfl rfl rfl rfl)
    · split
      · exact .refl s
      · exact .of_eq rfl rfl rfl rfl rfl rfl

theorem State.panelRecord_reports (type : RecordType) (origin : Addr) (zone code detail : Byte) (s : State) :
    s.Reports (s.panelRecord type origin zone code detail) := by
  rw [State.panelRecord_eq]
  exact .of_eq rfl rfl rfl rfl rfl rfl

theorem State.faults_reports (f : FaultLog) (s : State) : s.Reports { s with faults := f } := .of_eq rfl rfl rfl rfl rfl rfl

theorem State.raise_reports (c : FaultCode) (a : Addr) (s : State) : s.Reports (s.raise c a) := by
  unfold State.raise
  dsimp only
  split
  · exact ((State.faults_reports _ s).trans (State.panelRecord_reports _ _ _ _ _ _)).trans (State.look_reports _)
  · exact State.faults_reports _ s

theorem State.raiseOwn_reports (c : FaultCode) (s : State) : s.Reports (s.raiseOwn c) := State.raise_reports c _ s

theorem State.clear_reports (c : FaultCode) (a : Addr) (s : State) : s.Reports (s.clear c a) := by
  unfold State.clear
  dsimp only
  split
  · exact ((State.faults_reports _ s).trans (State.panelRecord_reports _ _ _ _ _ _)).trans (State.look_reports _)
  · exact State.faults_reports _ s

theorem State.clearOwn_reports (c : FaultCode) (s : State) : s.Reports (s.clearOwn c) := State.clear_reports c _ s

/-! ## The timers that ask for floods -/

/-- Settles O53: a HEALTH is made with the counters, or marked pending. -/
theorem healthTimer : Obligations.HealthTimer := by
  intro dt e s timer due settled
  have run := exec_settled (exec_healthTimerExpiry_due timer due) settled
  refine ⟨_, run, ?_⟩
  generalize x_eq : ({ s with now := s.now + dt, sv := { s.sv with health := some (e + s.cfg.healthPeriod * 3600000000) } } : State) = x
  have frame : x.TxFrame (x.perform .health) := State.askHealth_frame x
  have same : (State.finish s (x.perform .health)).SameDetection s := by
    refine State.SameDetection.finish (dt := dt) ?_
    have before : (s.elapse dt).SameDetection x := by rw [← x_eq]; exact ⟨rfl, rfl, rfl, rfl, rfl, rfl, rfl, rfl⟩
    exact before.trans frame.fault.sameDetection
  refine ⟨?_, same, fun can => ?_, fun cannot => ?_⟩
  · rw [State.finish_sv, frame.sv, ← x_eq]
  · have can' : x.CanOriginate .routine := by rw [← x_eq]; exact can
    obtain ⟨t, made, asked⟩ := State.askHealth_of_can can'
    obtain ⟨fu, b, free, -, -, frame⟩ := State.originate_flood made nofun
    obtain ⟨-, -, counters⟩ := State.originate_routine made rfl
    rw [show x.perform .health = t from asked]
    refine ⟨fun c => ?_, ?_, b, ?_, ?_⟩
    · rw [State.finish_counter, State.counter, counters]
      exact Vector.getElem_replicate _
    · rw [State.finish_fu, fu, ← x_eq]
    · rw [← x_eq] at free
      exact free
    · rw [State.finish_buf, frame, ← x_eq, List.append_assoc]
      rfl
  · have cannot' : ¬ x.CanOriginate .routine := by rw [← x_eq]; exact cannot
    rw [show x.perform .health = _ from State.askHealth_of_cannot cannot', State.finish_counters, State.finish_fu,
      State.finish_pool, ← x_eq]
    exact ⟨rfl, rfl, rfl⟩

/-- Settles O42: the watch has expired, and its raise is done at once or held (`exec_channelBlockedWatchExpiry_due`). -/
theorem watchExpiry : Obligations.WatchExpiry := by
  intro dt e s watch due
  have run := exec_channelBlockedWatchExpiry_due watch due
  refine ⟨fun power storable => ?_, fun power => ?_⟩
  · generalize x_eq : ({ s with now := s.now + dt, tu := { s.tu with watch := .expired } } : State) = x at run
    have raised : x.perform .channelBlocked = x.raise .channelBlocked s.cfg.address := by rw [← x_eq]; rfl
    have before : (s.elapse dt).SameDetection x := by rw [← x_eq]; exact ⟨rfl, rfl, rfl, rfl, rfl, rfl, rfl, rfl⟩
    refine ⟨_, exec_inRun run (by rw [← x_eq]; exact power), ?_, ?_, ?_⟩ <;> rw [raised]
    · rw [State.finish_faultActive]
      exact State.raise_faultActive (by rw [← x_eq]; exact storable)
    · rw [State.finish_tu, (State.raise_reports _ _ _).watch, ← x_eq]
    · exact (before.trans (State.raise_frame _ _ x).sameDetection).finish
  · rw [run, State.timerWork_eq, if_pos power]

/-- Settles O18: the FIRE is made or pending (`State.askFire`); its offer by `State.originate_urgentTaken`. -/
theorem refreshAsksForFire : Obligations.RefreshAsksForFire := by
  intro dt e ed c s timer due settled cause evidence
  have run := exec_settled (exec_refreshTimerExpiry_due timer due) settled
  generalize x_eq : ({ s with now := s.now + dt, det := { s.det with refresh := some (e + 30000000) } } : State) = x at run
  have asked : x.perform .refresh = x.askFire c ed := by
    rw [← x_eq]
    simp only [State.perform, State.refreshFire, cause, evidence]
  rw [asked] at run
  have frame := State.askFire_frame c ed x
  refine ⟨_, run, ?_, ?_, ?_, ?_, fun can => ?_, fun cannot => ?_⟩
  · rw [State.finish_det, frame.det, ← x_eq]
  · rw [State.finish_ev, frame.ev, ← x_eq]
  · rw [State.finish_nt, frame.nt, ← x_eq]
  · rw [State.finish_fu, frame.fires, ← x_eq]
  · obtain ⟨t, made, eq⟩ := State.askFire_of_can c ed (s := x) (by rw [← x_eq]; exact can)
    have fu := (State.originate_flood made nofun).1
    obtain ⟨b, free, cls, text, taken⟩ := State.originate_urgent made nofun rfl
    rw [eq, State.finish_fu, fu]
    refine ⟨by rw [← x_eq], by rw [← x_eq], b, by rw [← x_eq] at free; exact free, ?_, ?_, fun sound => ?_⟩
    · rw [State.finish_buf, cls]
    · rw [State.finish_buf, text, ← x_eq]
      rfl
    · have := taken (by rw [← x_eq]; exact sound.entriesHeld.of_eq rfl rfl)
      rw [← x_eq] at this
      exact State.UrgentTaken.finish this
  · have cannot' : ¬ x.CanOriginate .urgent := by rw [← x_eq]; exact cannot
    rw [State.askFire_of_cannot c ed cannot', ← x_eq]
    split <;> rename_i pending
    · refine ⟨by rw [State.finish_fu], by rw [State.finish_pool], by rw [State.finish_tu], ?_⟩
      rw [State.finish_fu]
      exact (if_pos pending).symm
    · refine ⟨by rw [State.finish_fu]; rfl, by rw [State.finish_pool]; rfl, by rw [State.finish_tu]; rfl, ?_⟩
      rw [State.finish_fu]
      exact (if_neg pending).symm

/-- Settles O19: NORMAL is in force at once, or pending in VERIFY. -/
theorem serviceLimit : Obligations.ServiceLimit := by
  intro dt e s timer due settled service
  have run := exec_settled (exec_serviceLimitExpiry_due timer due) settled
  generalize x_eq : ({ s with now := s.now + dt, det := { s.det with serviceLimit := none } } : State) = x at run
  have det : x.det = { s.det with serviceLimit := none } := by rw [← x_eq]
  have ended : x.perform .serviceLimit = if s.det.state = .verify
      then { x with det := { x.det with pendingProfile := some .normal } } else x.takeProfile .normal := by
    have other : ¬ x.det.profile = .normal := by rw [det]; change ¬ s.det.profile = .normal; rw [service]; nofun
    change x.serviceEnded = _
    rw [State.serviceEnded, if_neg other, det]
  refine ⟨_, run, ?_⟩
  rw [ended]
  split
  · rw [State.finish_det, State.finish_ev, State.finish_nt, State.finish_sc, State.finish_fu, ← x_eq]
    exact ⟨rfl, rfl, rfl, rfl, rfl⟩
  · have same := (State.takeProfile_frame .normal x).sameDetection
    rw [State.finish_det, State.finish_ev, State.finish_nt, State.finish_sc, State.finish_fu, same.det, same.ev, same.nt,
      same.sc, same.fires, ← x_eq]
    exact ⟨rfl, rfl, rfl, rfl, rfl⟩

/-- The observation timer's start in QUIET draws a jitter of 0 to 7 s (R59). -/
theorem State.startObservationAt_quiet {s : State} (e : Nat) (quiet : s.det.state = .quiet) : ∃ j : Nat, j ≤ 7 ∧
    s.startObservationAt e = { s with
      draws := s.draws + 1
      det := { s.det with observation := some (e + (s.cfg.observationPeriod + j) * 1000000) } } := by
  refine ⟨s.drawOf 8, Nat.le_of_lt_succ (Nat.mod_lt _ (by decide)), ?_⟩
  rw [State.startObservationAt, State.observationTime, if_pos quiet, State.observationDrawn, if_pos quiet, seconds, seconds,
    ← Nat.add_mul]
  rfl

/-- In every other state it runs for 4 s (R59). -/
theorem State.startObservationAt_other {s : State} (e : Nat) (other : s.det.state ≠ .quiet) : s.startObservationAt e =
    { s with det := { s.det with observation := some (e + 4000000) } } := by
  rw [State.startObservationAt, State.observationTime, if_neg other, State.observationDrawn, if_neg other]
  rfl

/-- Settles O20: the timer's start (`State.startObservationAt`) and the request for an OBSERVATION. -/
theorem observationTimer : Obligations.ObservationTimer := by
  intro dt e s timer due settled
  have started : ∃ d j, j ≤ 7 ∧ (s.elapse dt).startObservationAt e = { s with
      now := s.now + dt, draws := d
      det := { s.det with observation := some (if s.det.state = .quiet
        then e + (s.cfg.observationPeriod + j) * 1000000 else e + 4000000) } } := by
    by_cases quiet : s.det.state = .quiet
    · obtain ⟨j, low, eq⟩ := State.startObservationAt_quiet (s := s.elapse dt) e quiet
      exact ⟨_, j, low, by rw [eq, if_pos quiet]; rfl⟩
    · refine ⟨s.draws, 0, Nat.zero_le 7, ?_⟩
      rw [State.startObservationAt_other (s := s.elapse dt) e quiet, if_neg quiet]
      rfl
  obtain ⟨d, j, low, eq⟩ := started
  have run := exec_observationTimerExpiry_due timer due
  rw [eq] at run
  have run' := exec_settled run settled
  generalize x_eq : ({ s with
      now := s.now + dt, draws := d
      det := { s.det with observation := some (if s.det.state = .quiet
        then e + (s.cfg.observationPeriod + j) * 1000000 else e + 4000000) } } : State) = x at run'
  have frame := State.requestObservation_frame x
  refine ⟨_, j, run', low, ?_, fun can => ?_, fun cannot => ?_, ?_, ?_, ?_, ?_⟩ <;>
    rw [show x.perform .observation = x.requestObservation from rfl]
  · rw [State.finish_det, frame.det, ← x_eq]
  · rw [State.ownInFlight_congr (s := x.requestObservation) (State.finish_pool _ _) (State.finish_tu _ _)]
    exact State.requestObservation_inFlight (.inr (by rw [← x_eq]; exact can))
  · rw [State.requestObservation_of_cannot (by rw [← x_eq]; exact cannot), State.finish_pool, State.finish_tu, ← x_eq]
    exact ⟨rfl, rfl⟩
  · rw [State.finish_ev, frame.ev, ← x_eq]
  · rw [State.finish_nt, frame.nt, ← x_eq]
  · rw [State.finish_sc, frame.sc, ← x_eq]
  · rw [State.finish_fu, (State.requestObservation_offers x).fu, ← x_eq]

/-- The detection record after a request for SERVICE, case by case (R54). -/
theorem Detection.requested_service (now : Us) (applies : Bool) (d : Detection) :
    (applies = false → d.requested applies now .service = d) ∧
    (applies = true → d.state ≠ .verify → d.requested applies now .service =
      { d with profile := .service, serviceLimit := some (now + 14400000000) }) ∧
    (applies = true → d.state = .verify → d.profile = .normal → d.requested applies now .service =
      { d with pendingProfile := some .service }) ∧
    (applies = true → d.state = .verify → d.profile = .service → d.requested applies now .service =
      { d with pendingProfile := none, serviceLimit := some (now + 14400000000) }) := by
  refine ⟨?_, ?_, ?_, ?_⟩
  · rintro rfl
    rfl
  · rintro rfl other
    rw [Detection.requested, if_pos rfl, if_neg other]
    split
    · rename_i same
      rw [if_pos rfl]
      exact congrArg (fun p => ({ d with profile := p, serviceLimit := some (now + 14400000000) } : Detection)) same.symm
    · rfl
  · rintro rfl verify normal
    rw [Detection.requested, if_pos rfl, if_pos verify, if_neg (by rw [normal]; nofun)]
  · rintro rfl verify service
    rw [Detection.requested, if_pos rfl, if_pos verify, if_pos service.symm]
    rfl

/-- Settles O47: the PROFILE is made or pending (`State.askProfile`), then the own detection unit is asked. -/
theorem profileRefresh : Obligations.ProfileRefresh := by
  intro dt e s timer due limit
  generalize x_eq : ({ s with now := s.now + dt, fu := { s.fu with profileRefresh := some (e + 1800000000) } } : State) = x
  have run : exec (.profileRefreshTimerExpiry dt) s = .next (State.finish s ((x.askProfile .service).profileRequest .service)) := by
    change execProfileRefreshTimerExpiry dt s = _
    refine State.event_eq ?_
    rw [if_pos (by rw [State.elapse_fu, timer]; exact State.due_of due), State.elapse_fu, timer, ← x_eq]
    rfl
  have asked := State.askProfile_frame .service x
  have requested := State.profileRequest_frame .service (x.askProfile .service)
  have det : ((x.askProfile .service).profileRequest .service).det =
      s.det.requested s.cfg.serviceApplies (s.now + dt) .service := by
    have eq : ((x.askProfile .service).profileRequest .service).det =
      (x.askProfile .service).det.requested (x.askProfile .service).cfg.serviceApplies (x.askProfile .service).now .service :=
        requested.det
    rw [eq, asked.det, asked.fault.cfg, asked.now, ← x_eq]
    rfl
  obtain ⟨none, now, pending, again⟩ := Detection.requested_service (s.now + dt) s.cfg.serviceApplies s.det
  have offers := State.profileRequest_offers .service (x.askProfile .service)
  refine ⟨_, run, ?_, ?_, ?_, ?_, ?_, ?_, ?_, ?_, fun can => ?_, fun cannot => ?_⟩
  · rw [State.finish_fu, requested.refresh]
    exact asked.refresh.trans (by rw [← x_eq])
  · rw [State.finish_fu, requested.fires]
    exact asked.fires.trans (by rw [← x_eq])
  · rw [State.finish_nt, requested.nt]
    exact asked.nt.trans (by rw [← x_eq])
  · rw [State.finish_ev, requested.ev]
    exact asked.ev.trans (by rw [← x_eq])
  · rw [State.finish_det, det]
    exact none
  · rw [State.finish_det, det]
    exact now
  · rw [State.finish_det, det]
    exact pending
  · rw [State.finish_det, det]
    exact again
  · obtain ⟨t, made, eq⟩ := State.askProfile_of_can .service (s := x) (by rw [← x_eq]; exact can)
    obtain ⟨fu, b, free, taken, cls, frame⟩ := State.originate_flood made nofun
    rw [State.finish_fu, offers.fu, eq, fu]
    rw [eq] at offers
    obtain ⟨-, cls', frame', -⟩ := offers.frames b taken
    refine ⟨by rw [← x_eq], by rw [← x_eq], b, by rw [← x_eq] at free; exact free, ?_, ?_⟩
    · rw [State.finish_buf, cls', cls]
      rfl
    · rw [State.finish_buf, frame', frame, ← x_eq]
      rfl
  · rw [State.finish_fu, offers.fu, State.askProfile_of_cannot .service (by rw [← x_eq]; exact cannot), ← x_eq]
    exact ⟨rfl, rfl⟩

end Sys2Proof.Machine
end

section
/-! SUPPORT. Scan requests, the active list and the boundary's look (1.4, 9.1 to 9.4). -/
namespace Sys2Proof.Machine

/-! ## Requests and samples -/

/-- A scan request changes the measurement unit and the scan guard alone, and a scan is in flight after it (R5, R6). -/
theorem State.requestScan_eq (r : Requester) (s : State) :
    ∃ mu guards, s.requestScan r = { s with mu := mu, guards := guards } ∧ mu.scan ≠ none := by
  unfold State.requestScan
  split
  · exact ⟨_, _, rfl, nofun⟩
  · exact ⟨_, s.guards, rfl, nofun⟩

/-- With no scan in flight a request starts the next one under the 5 ms guard (R5, R13). -/
theorem State.requestScan_idle {r : Requester} {s : State} (idle : s.mu.scan = none) : s.requestScan r = { s with
    mu := { s.mu with seq := s.mu.seq + 1, scan := some (.started (s.mu.seq + 1) s.now r) }
    guards := { s.guards with scan := some (s.now + 5000) } } := by
  simp only [State.requestScan, idle]
  rfl

/-- The requester awaits the scan in flight after its request (R5, R6). -/
theorem State.requestScan_awaited (s : State) :
    (∃ x, (s.requestScan .selfTest).mu.scan = some x ∧ x.awaitedSelfTest = true) ∧
      ∃ x, (s.requestScan .learning).mu.scan = some x ∧ x.awaitedLearning = true := by
  unfold State.requestScan
  cases s.mu.scan with
  | none => exact ⟨⟨_, rfl, rfl⟩, ⟨_, rfl, rfl⟩⟩
  | some x => exact ⟨⟨_, rfl, Bool.or_true _⟩, ⟨_, rfl, Bool.or_true _⟩⟩

/-- The radio once a sample has been asked for (R103). -/
def State.sampled (s : State) : Radio :=
  if s.radio.rx = .off ∧ s.radio.owner = .none then
    { s.radio with owner := .receiveUnit, rx := .sampling, sampleEnd := some (s.now + 4000) }
  else s.radio

theorem State.sampled_congr {s t : State} (radio : t.radio = s.radio) (now : t.now = s.now) : t.sampled = s.sampled := by
  rw [State.sampled, State.sampled, radio, now]

theorem State.sample_eq (s : State) : s.sample = { s with radio := s.sampled } := by
  unfold State.sample State.sampled
  split <;> rfl

/-- The radio once the active list has changed (R102). -/
def State.relisted (l : ActiveList) (s : State) : Radio :=
  if s.radio.owner = .none then { s.radio with rx := if l = .alert then .listening else .off } else s.radio

theorem State.listChanged_eq (s : State) : s.listChanged = { s with radio := s.relisted s.su.list } := by
  unfold State.listChanged State.relisted
  split <;> rfl

theorem State.switchTo_eq (l : ActiveList) (s : State) : s.switchTo l = { s with
    su := { s.su with list := l, position := 1, hold := .stopped }
    radio := s.relisted l } := by
  rw [State.switchTo, State.listChanged_eq]
  rfl

/-! ## Entries (R157, R158) -/

/-- The entry of the quiet list: its sample, and its scan at entry 1 alone (R157). -/
theorem State.beginEntry_quiet {s : State} (list : s.su.list = .quiet) : ∃ mu guards,
    s.beginEntry = { s with radio := s.sampled, mu := mu, guards := guards } ∧
      (s.su.position = 1 → mu.scan ≠ none) ∧ (s.su.position ≠ 1 → mu = s.mu) := by
  simp only [State.beginEntry, list, State.sample_eq]
  split
  · rename_i first
    obtain ⟨mu, guards, eq, scan⟩ := State.requestScan_eq .schedule { s with radio := s.sampled }
    exact ⟨mu, guards, eq, fun _ => scan, fun other => absurd first other⟩
  · rename_i other
    exact ⟨_, _, rfl, fun first => absurd first other, fun _ => rfl⟩

/-- An entry of the alert list: its scan, which learning awaits too (R158, R190). -/
theorem State.beginEntry_alert {s : State} (list : s.su.list = .alert) : ∃ mu guards,
    s.beginEntry = { s with mu := mu, guards := guards } ∧ mu.scan ≠ none := by
  simp only [State.beginEntry, list]
  obtain ⟨mu, guards, eq, scan⟩ := State.requestScan_eq .schedule s
  split
  · obtain ⟨mu', guards', eq', scan'⟩ := State.requestScan_eq .learning (s.requestScan .schedule)
    exact ⟨mu', guards', by rw [eq', eq], scan'⟩
  · exact ⟨mu, guards, eq, scan⟩

/-- Outside learning an entry of the alert list asks for its scan alone (R158). -/
theorem State.beginEntry_alert_of {s : State} (list : s.su.list = .alert) (learned : s.sc.learning ≠ .learning) :
    s.beginEntry = s.requestScan .schedule := by
  simp only [State.beginEntry, list, if_neg learned]

/-! ## The look (R159, R161, R163) -/

theorem neighbourAlarm_iff {ms : Ms} {nt : List Neighbour} : neighbourAlarm ms nt = true ↔
    ∃ n ∈ nt, n.status = .live ∧ ∃ r, n.report = some r ∧ (r.state = .verify ∨ r.state = .fire) ∧ ms - r.heardAt ≤ 10000 := by
  simp only [neighbourAlarm, List.any_eq_true, Bool.and_eq_true, Option.any_eq_true, Bool.or_eq_true, decide_eq_true_iff]

theorem State.fireListed_iff {s : State} : s.fireListed = true ↔ s.fu.fires ≠ [] ∨ s.fu.overflow = true := by
  simp [State.fireListed]

/-- The causes of R159. -/
theorem State.alertCause_iff {s : State} : s.alertCause = true ↔ s.det.state ≠ .quiet ∨ s.fu.fires ≠ [] ∨ s.fu.overflow = true ∨
    (∃ n ∈ s.nt, n.status = .live ∧ ∃ r, n.report = some r ∧ (r.state = .verify ∨ r.state = .fire) ∧
      s.ms - r.heardAt ≤ 10000) ∨ s.su.startWindow ≠ none ∨ s.sv.selfTest ≠ .idle ∨ s.sv.selfTestEnded = true := by
  simp only [State.alertCause, Bool.or_eq_true, State.fireListed_iff, neighbourAlarm_iff, decide_eq_true_iff, or_assoc,
    Option.isSome_iff_ne_none]

theorem State.leavesAlert_iff {cause : Bool} {s : State} : s.leavesAlert cause = true ↔ cause = false ∧ s.su.hold = .runOut ∧
    s.su.commitment = none ∧ ¬ (s.tu.phase = .body ∧ s.tu.sentAlert = true) := by
  simp [State.leavesAlert, and_assoc, Decidable.imp_iff_not_or]

/-- A look leaves the alert hold run out only where it found it so and no cause (R161). -/
theorem holdAfter_runOut {cause : Bool} {now : Us} {h : AlertHold} :
    (cause = false ∧ holdAfter cause now h = .runOut) ↔ cause = false ∧ h = .runOut := by
  cases cause <;> cases h <;> simp [holdAfter]

/-- Without a cause a stopped hold begins its 60 s, and any other goes on (R161). -/
theorem holdAfter_calm (now : Us) (h : AlertHold) :
    holdAfter false now h = if h = .stopped then .running (now + 60000000) else h := by
  cases h <;> rfl

/-- A radio free at the switch to the quiet list takes its entry's sample (R102, R103). -/
theorem State.sampled_relisted {s : State} (free : s.radio.owner = .none) :
    (State.sampled { s with radio := s.relisted .quiet }).rx = .sampling := by
  have off : s.relisted .quiet = { s.radio with rx := .off } := if_pos free
  rw [off, State.sampled, if_pos ⟨rfl, free⟩]

/-- The station once the look has taken the mark of an ended self-test (R159). -/
def State.looked (s : State) : State := { s with sv := { s.sv with selfTestEnded := false } }

theorem State.boundaryWork_quiet {s : State} (detector : s.isDetector = true) (list : s.su.list = .quiet) :
    s.boundaryWork = s.looked.quietBoundary s.alertCause := by
  rw [State.boundaryWork, if_pos detector]
  simp only [list]
  rfl

theorem State.boundaryWork_alert {s : State} (detector : s.isDetector = true) (list : s.su.list = .alert) :
    s.boundaryWork = s.looked.alertBoundary s.alertCause := by
  rw [State.boundaryWork, if_pos detector]
  simp only [list]
  rfl

/-- A RELAY or PANEL station makes no look (R158). -/
theorem State.boundaryWork_other {s : State} (other : s.isDetector = false) (list : s.su.list = .alert) :
    s.boundaryWork = s.advance.beginEntry := by
  rw [State.boundaryWork, if_neg (by rw [other]; nofun)]
  simp only [list]

/-- A cause on the quiet list begins alert entry 1 with its scan (R160). -/
theorem State.boundary_quiet_cause {s : State} (detector : s.isDetector = true) (list : s.su.list = .quiet)
    (cause : s.alertCause = true) : ∃ mu guards, mu.scan ≠ none ∧ s.boundaryWork = { s.looked with
      su := { s.su with list := .alert, position := 1, hold := .stopped }
      radio := s.relisted .alert, mu := mu, guards := guards } := by
  obtain ⟨mu, guards, eq, scan⟩ := State.beginEntry_alert (s := s.looked.switchTo .alert) (by rw [State.switchTo_eq])
  refine ⟨mu, guards, scan, ?_⟩
  rw [State.switchTo_eq] at eq
  rw [State.boundaryWork_quiet detector list, State.quietBoundary, if_pos cause, State.switchTo_eq, eq]
  rfl

/-- Without a cause the quiet list goes on (R157). -/
theorem State.boundary_quiet {s : State} (detector : s.isDetector = true) (list : s.su.list = .quiet)
    (cause : s.alertCause = false) : ∃ mu guards,
      ((if s.su.position < 4 then s.su.position + 1 else 1) = 1 → mu.scan ≠ none) ∧
      ((if s.su.position < 4 then s.su.position + 1 else 1) ≠ 1 → mu = s.mu) ∧ s.boundaryWork = { s.looked with
        su := { s.su with position := if s.su.position < 4 then s.su.position + 1 else 1 }
        radio := s.sampled, mu := mu, guards := guards } := by
  obtain ⟨mu, guards, eq, first, other⟩ := State.beginEntry_quiet (s := s.looked.advance) list
  have entries : s.looked.advance = { s.looked with su := { s.su with
      position := if s.su.position < 4 then s.su.position + 1 else 1 } } := by
    rw [State.advance, show s.looked.su.list = .quiet from list]
    rfl
  rw [entries] at eq first other
  refine ⟨mu, guards, first, other, ?_⟩
  rw [State.boundaryWork_quiet detector list, State.quietBoundary, if_neg (by rw [cause]; nofun), entries, eq]
  rw [State.sampled_congr (s := s) rfl rfl]
  rfl

/-- The alert list is left for quiet entry 1 with its sample and scan (R163). -/
theorem State.boundary_alert_leaves {s : State} (detector : s.isDetector = true) (list : s.su.list = .alert)
    (cause : s.alertCause = false) (hold : s.su.hold = .runOut) (commitment : s.su.commitment = none)
    (body : ¬ (s.tu.phase = .body ∧ s.tu.sentAlert = true)) : ∃ mu guards, mu.scan ≠ none ∧ s.boundaryWork = { s.looked with
      su := { s.su with list := .quiet, position := 1, hold := .stopped }
      radio := State.sampled { s with radio := s.relisted .quiet }, mu := mu, guards := guards } := by
  have kept : ({ s.looked with su := { s.looked.su with hold := holdAfter false s.looked.now s.looked.su.hold } } : State) =
      s.looked := by
    rw [show s.looked.su.hold = .runOut from hold]
    change ({ s.looked with su := { s.su with hold := AlertHold.runOut } } : State) = s.looked
    rw [← hold]
    rfl
  obtain ⟨mu, guards, eq, first, -⟩ := State.beginEntry_quiet (s := s.looked.switchTo .quiet) (by rw [State.switchTo_eq])
  rw [State.switchTo_eq] at eq first
  refine ⟨mu, guards, first rfl, ?_⟩
  rw [State.boundaryWork_alert detector list, cause]
  rw [State.alertBoundary]
  dsimp only
  rw [kept, if_pos ((State.leavesAlert_iff (s := s.looked)).2 ⟨rfl, hold, commitment, body⟩), State.switchTo_eq, eq]
  rw [State.sampled_congr (s := { s with radio := s.relisted .quiet }) rfl rfl]
  rfl

/-- The alert list goes on with its next entry, its scan and its hold (R158, R161). -/
theorem State.boundary_alert {s : State} (detector : s.isDetector = true) (list : s.su.list = .alert)
    (stays : ¬ (s.alertCause = false ∧ s.su.hold = .runOut ∧ s.su.commitment = none ∧
      ¬ (s.tu.phase = .body ∧ s.tu.sentAlert = true))) : ∃ mu guards, mu.scan ≠ none ∧ s.boundaryWork = { s.looked with
      su := { s.su with
        hold := holdAfter s.alertCause s.now s.su.hold
        position := if s.su.position < 2 then s.su.position + 1 else 1 }
      mu := mu, guards := guards } := by
  generalize held_eq : ({ s.looked with su := { s.looked.su with
    hold := holdAfter s.alertCause s.looked.now s.looked.su.hold } } : State) = x
  have listed : x.su.list = .alert := by rw [← held_eq]; exact list
  have remains : ¬ x.leavesAlert s.alertCause = true := by
    rw [State.leavesAlert_iff, ← held_eq]
    rintro ⟨cause, hold, rest⟩
    exact stays ⟨cause, (holdAfter_runOut.1 ⟨cause, hold⟩).2, rest⟩
  obtain ⟨mu, guards, eq, scan⟩ := State.beginEntry_alert (s := x.advance) listed
  refine ⟨mu, guards, scan, ?_⟩
  rw [State.boundaryWork_alert detector list, State.alertBoundary]
  dsimp only
  rw [held_eq, if_neg remains, eq, State.advance, listed, ← held_eq]
  rfl

/-- Settles O48: the four outcomes of the look, and the boundary without a look. -/
theorem entryBoundary : Obligations.EntryBoundary := by
  refine ⟨?_, ?_⟩
  · intro dt e s detector timer due settled cause leaves list
    have run := exec_settled (exec_entryBoundary_due timer due) settled
    generalize x_eq : ({ s with now := s.now + dt, su := { s.su with nextBoundary := some (e + 500000) } } : State) = x at run
    have found : x.alertCause = true ↔ cause := by rw [State.alertCause_iff, ← x_eq]; rfl
    have detector' : x.isDetector = true := by rw [← x_eq]; exact detector
    have lists : x.su.list = s.su.list := by rw [← x_eq]
    refine ⟨_, run, ?_⟩
    simp only [State.finish_su_nextBoundary, State.finish_sv, State.finish_det, State.finish_ev, State.finish_nt,
      State.finish_fu, State.finish_tu, State.finish_counters, State.finish_su_list, State.finish_su_position,
      State.finish_su_hold, State.finish_mu, State.finish_radio]
    cases which : s.su.list with
    | none => exact absurd which list
    | quiet =>
      by_cases yes : x.alertCause = true
      · obtain ⟨mu, guards, scan, eq⟩ := State.boundary_quiet_cause detector' (lists.trans which) yes
        rw [show x.perform .boundary = _ from eq]
        subst x_eq
        refine ⟨rfl, rfl, rfl, rfl, rfl, rfl, rfl, rfl, fun _ _ => ⟨rfl, rfl, rfl, scan, fun free => ?_⟩,
          fun _ no => absurd (found.1 yes) no, nofun, nofun⟩
        exact congrArg Radio.rx (if_pos free)
      · obtain ⟨mu, guards, first, next, eq⟩ := State.boundary_quiet detector' (lists.trans which) (Bool.eq_false_iff.2 yes)
        rw [show x.perform .boundary = _ from eq]
        subst x_eq
        refine ⟨rfl, rfl, rfl, rfl, rfl, rfl, rfl, rfl, fun _ k => absurd (found.2 k) yes,
          fun _ _ => ⟨which, rfl, rfl, first, next, fun off free => ?_, fun busy => ?_⟩, nofun, nofun⟩
        · have : s.radio.rx = .off ∧ s.radio.owner = .none := ⟨off, free⟩
          simp only [State.sampled, this, and_self, if_true]
        · exact if_neg busy
    | alert =>
      by_cases go : leaves
      · obtain ⟨no, hold, commitment, body⟩ := go
        have calm : x.alertCause = false := Bool.eq_false_iff.2 (mt found.1 no)
        subst x_eq
        obtain ⟨mu, guards, scan, eq⟩ := State.boundary_alert_leaves detector' (lists.trans which) calm hold commitment body
        rw [show State.perform .boundary _ = _ from eq]
        refine ⟨rfl, rfl, rfl, rfl, rfl, rfl, rfl, rfl, nofun, nofun, fun _ _ => ⟨rfl, rfl, rfl, scan, fun free => ?_⟩,
          fun _ k => absurd ⟨no, hold, commitment, body⟩ k⟩
        exact State.sampled_relisted free
      · have stays : ¬ (x.alertCause = false ∧ x.su.hold = .runOut ∧ x.su.commitment = none ∧
            ¬ (x.tu.phase = .body ∧ x.tu.sentAlert = true)) := by
          subst x_eq
          rintro ⟨calm, rest⟩
          exact go ⟨mt found.2 (Bool.eq_false_iff.1 calm), rest⟩
        obtain ⟨mu, guards, scan, eq⟩ := State.boundary_alert detector' (lists.trans which) stays
        rw [show x.perform .boundary = _ from eq]
        subst x_eq
        refine ⟨rfl, rfl, rfl, rfl, rfl, rfl, rfl, rfl, nofun, nofun, fun _ k => absurd k go,
          fun _ _ => ⟨which, scan, rfl, rfl, fun yes => ?_, fun no => ?_⟩⟩
        · change holdAfter _ _ _ = _
          rw [found.2 yes]
          rfl
        · change holdAfter _ _ _ = _
          rw [Bool.eq_false_iff.2 (mt found.1 no)]
          exact holdAfter_calm _ _
  · intro dt e s other list timer due settled idle learned
    have run := exec_settled (exec_entryBoundary_due timer due) settled
    rw [run]
    refine congrArg (fun t => Host.Outcome.next (State.finish s t)) ?_
    generalize x_eq : ({ s with now := s.now + dt, su := { s.su with nextBoundary := some (e + 500000) } } : State) = x
    have listed : x.su.list = .alert := by rw [← x_eq]; exact list
    have work : x.boundaryWork = x.advance.requestScan .schedule :=
      (State.boundaryWork_other (by rw [← x_eq]; exact other) listed).trans
        (State.beginEntry_alert_of listed (by rw [← x_eq]; exact learned))
    rw [show x.perform .boundary = _ from work, State.requestScan_idle (by rw [← x_eq]; exact idle), State.advance, listed,
      ← x_eq]
    rfl

end Sys2Proof.Machine
end

section
/-! SUPPORT. The reporting look and the supervision unit's timers (10.2 to 10.4). -/
namespace Sys2Proof.Machine

/-! ## Sorting -/

/-- An element put into a sorted list leaves it sorted. -/
theorem insertBy_pairwise {α : Type} {lt : α → α → Bool}
    (trans : ∀ a b c, lt a b = true → lt b c = true → lt a c = true) {x : α} :
    ∀ {l : List α}, l.Pairwise (fun a b => lt a b = true) → (∀ y ∈ l, lt x y = true ∨ lt y x = true) →
      (insertBy lt x l).Pairwise (fun a b => lt a b = true)
  | [], _, _ => List.pairwise_singleton _ _
  | y :: ys, sorted, total => by
    obtain ⟨least, rest⟩ := List.pairwise_cons.1 sorted
    unfold insertBy
    split
    · rename_i before
      refine List.pairwise_cons.2 ⟨fun z hz => ?_,
        insertBy_pairwise trans rest fun z hz => total z (List.mem_cons_of_mem _ hz)⟩
      obtain rfl | hz := List.mem_cons.1 ((insertBy_perm lt x ys).mem_iff.1 hz)
      · exact before
      · exact least z hz
    · rename_i behind
      have first := (total y List.mem_cons_self).resolve_right behind
      refine List.pairwise_cons.2 ⟨fun z hz => ?_, sorted⟩
      obtain rfl | hz := List.mem_cons.1 hz
      · exact first
      · exact trans _ _ _ first (least z hz)

/-- A list whose elements are ordered one way or the other is sorted by `sortBy`. -/
theorem sortBy_pairwise {α : Type} {lt : α → α → Bool}
    (trans : ∀ a b c, lt a b = true → lt b c = true → lt a c = true) :
    ∀ {l : List α}, l.Pairwise (fun a b => lt a b = true ∨ lt b a = true) →
      (sortBy lt l).Pairwise (fun a b => lt a b = true)
  | [], _ => .nil
  | x :: xs, total => by
    obtain ⟨first, rest⟩ := List.pairwise_cons.1 total
    exact insertBy_pairwise trans (sortBy_pairwise trans rest) fun y hy => first y ((sortBy_perm lt xs).mem_iff.1 hy)

/-! ## The age order (R172) -/

theorem FaultCode.code_injective {a b : FaultCode} (h : a.code.toNat = b.code.toNat) : a = b := by
  revert h
  cases a <;> cases b <;> simp [FaultCode.code]

theorem recordBefore_iff {a b : FaultRecord} : recordBefore a b = true ↔ a.raisedAt < b.raisedAt ∨ a.raisedAt = b.raisedAt ∧
    (a.code.code.toNat < b.code.code.toNat ∨ a.code = b.code ∧ a.subject.toNat < b.subject.toNat) := by
  rw [recordBefore, decide_eq_true_iff]

/-- The order of codes is the order of their numbers. -/
theorem recordBefore_iff_code {a b : FaultRecord} : recordBefore a b = true ↔ a.raisedAt < b.raisedAt ∨
    a.raisedAt = b.raisedAt ∧ (a.code.code.toNat < b.code.code.toNat ∨
      a.code.code.toNat = b.code.code.toNat ∧ a.subject.toNat < b.subject.toNat) := by
  rw [recordBefore_iff, show a.code = b.code ↔ a.code.code.toNat = b.code.code.toNat from
    ⟨fun h => by rw [h], FaultCode.code_injective⟩]

theorem recordBefore_trans (a b c : FaultRecord) (h : recordBefore a b = true) (k : recordBefore b c = true) :
    recordBefore a c = true := by
  have lex {x y z u v w p q r : Nat} (h : x < y ∨ x = y ∧ (u < v ∨ u = v ∧ p < q))
      (k : y < z ∨ y = z ∧ (v < w ∨ v = w ∧ q < r)) : x < z ∨ x = z ∧ (u < w ∨ u = w ∧ p < r) := by omega
  rw [recordBefore_iff_code] at h k ⊢
  exact lex h k

/-- Records of two pairs are ordered one way or the other. -/
theorem recordBefore_total {a b : FaultRecord} (h : (a.code, a.subject) ≠ (b.code, b.subject)) :
    recordBefore a b = true ∨ recordBefore b a = true := by
  have lex {x y u v p q : Nat} (h : ¬ (u = v ∧ p = q)) : (x < y ∨ x = y ∧ (u < v ∨ u = v ∧ p < q)) ∨
      (y < x ∨ y = x ∧ (v < u ∨ v = u ∧ q < p)) := by omega
  rw [recordBefore_iff_code, recordBefore_iff_code]
  refine lex ?_
  rintro ⟨code, subject⟩
  exact h (Prod.ext (FaultCode.code_injective code) (BitVec.eq_of_toNat_eq subject))

/-! ## The look (R176) -/

/-- The unreported records, oldest first. -/
def FaultLog.unreported (f : FaultLog) : List FaultRecord :=
  sortBy recordBefore (f.records.filter (fun r => !r.reported && !r.composed))

theorem FaultLog.mem_unreported {f : FaultLog} {r : FaultRecord} :
    r ∈ f.unreported ↔ r ∈ f.records ∧ r.reported = false ∧ r.composed = false := by
  rw [FaultLog.unreported, (sortBy_perm _ _).mem_iff, List.mem_filter, Bool.and_eq_true, Bool.not_eq_true',
    Bool.not_eq_true']

theorem FaultLog.unreported_sorted {f : FaultLog} (keyed : (f.records.map (fun r => (r.code, r.subject))).Nodup) :
    f.unreported.Pairwise (fun a b => recordBefore a b = true) := by
  refine sortBy_pairwise recordBefore_trans (List.Pairwise.filter _ ?_)
  exact (List.pairwise_map.1 keyed).imp recordBefore_total

theorem FaultLog.candidates_eq (f : FaultLog) : f.candidates = f.unreported.take 4 := rfl

theorem FaultLog.candidates_eq_nil {f : FaultLog} : f.candidates.isEmpty = true ↔ f.unreported = [] := by
  rw [FaultLog.candidates_eq, List.isEmpty_iff, List.take_eq_nil_iff]
  simp

/-- The records that are not chosen are behind four that are. -/
theorem FaultLog.candidates_oldest {f : FaultLog} (keyed : (f.records.map (fun r => (r.code, r.subject))).Nodup)
    {r : FaultRecord} (mem : r ∈ f.unreported) (left : r ∉ f.candidates) :
    f.candidates.length = 4 ∧ ∀ x ∈ f.candidates, recordBefore x r = true := by
  have behind : r ∈ f.unreported.drop 4 := by
    rw [← List.take_append_drop 4 f.unreported, List.mem_append] at mem
    exact mem.resolve_left left
  have sorted := f.unreported_sorted keyed
  rw [← List.take_append_drop 4 f.unreported, List.pairwise_append] at sorted
  refine ⟨?_, fun x hx => sorted.2.2 x hx r behind⟩
  have := List.length_pos_of_mem behind
  rw [List.length_drop] at this
  rw [FaultLog.candidates_eq, List.length_take]
  omega

/-- Exactly the chosen records take the composed mark (R176). -/
theorem FaultLog.compose_candidates {f : FaultLog} (keyed : (f.records.map (fun r => (r.code, r.subject))).Nodup)
    {chosen : List FaultRecord} (from_ : ∀ r ∈ chosen, r ∈ f.records) : f.compose chosen = { f with
      records := f.records.map (fun r => if r ∈ chosen then { r with composed := true } else r)
      retry := none } := by
  have same : f.records.map (fun r => if chosen.any (fun x => x.isFor r.code r.subject) then { r with composed := true } else r) =
      f.records.map (fun r => if r ∈ chosen then { r with composed := true } else r) := by
    refine List.map_congr_left fun r hr => ?_
    have iff : chosen.any (fun x => x.isFor r.code r.subject) = true ↔ r ∈ chosen := by
      rw [List.any_eq_true]
      refine ⟨fun ⟨x, hx, key⟩ => ?_, fun hr => ⟨r, hr, FaultRecord.isFor_iff.2 ⟨rfl, rfl⟩⟩⟩
      obtain ⟨code, subject⟩ := FaultRecord.isFor_iff.1 key
      rw [← eq_of_key_eq keyed (from_ x hx) hr (Prod.ext code subject)]
      exact hx
    simp only [iff]
  rw [FaultLog.compose, same]

/-- A look with an own FAULT in flight, or with nothing to report, changes nothing (R176). -/
theorem State.look_none {s : State} (h : s.ownInFlight kindFault = true ∨ s.faults.unreported = []) : s.look = s := by
  refine if_pos ?_
  rw [Bool.or_eq_true]
  exact h.imp_right FaultLog.candidates_eq_nil.2

/-- A FAULT that cannot be made starts the retry timer, unless it runs (R176). -/
theorem State.look_retries {s : State} (idle : s.ownInFlight kindFault = false) (some_ : s.faults.unreported ≠ [])
    (cannot : ¬ s.CanOriginate .routine) : s.look = { s with faults := { s.faults with
      retry := if s.faults.retry = none then some (s.now + 2000000) else s.faults.retry } } := by
  have asks : ¬ (s.ownInFlight kindFault || s.faults.candidates.isEmpty) = true := by
    rw [Bool.or_eq_true, FaultLog.candidates_eq_nil, idle]
    exact fun h => h.elim nofun some_
  have none := State.originate_of_cannot (o := .fault (s.faults.candidates.map fun r => (r.code, r.subject, r.active))) cannot
  rw [State.look, if_neg asks, none]
  dsimp only
  split <;> rename_i running
  · rw [if_neg (Option.isSome_iff_ne_none.1 running)]
  · rw [if_pos (Option.not_isSome_iff_eq_none.1 running)]
    rfl

/-- A FAULT that can be made carries the chosen records, which take the composed mark (R176). -/
theorem State.look_reported {s : State} (idle : s.ownInFlight kindFault = false) (some_ : s.faults.unreported ≠ [])
    (can : s.CanOriginate .routine) : ∃ t,
      s.originate (.fault (s.faults.candidates.map fun r => (r.code, r.subject, r.active))) = some t ∧
        s.look = { t with faults := s.faults.compose s.faults.candidates } := by
  obtain ⟨t, made⟩ := State.originate_of_can (o := .fault (s.faults.candidates.map fun r => (r.code, r.subject, r.active))) can
  have asks : ¬ (s.ownInFlight kindFault || s.faults.candidates.isEmpty) = true := by
    rw [Bool.or_eq_true, FaultLog.candidates_eq_nil, idle]
    exact fun h => h.elim nofun some_
  refine ⟨t, made, ?_⟩
  rw [State.look, if_neg asks, made, ← (State.originate_frame made).faults]

/-! ## An own routine frame in flight (R118) -/

theorem State.recount_carries (s : State) : s.Carries s.recount := by
  have flagged : s.Carries s.flagged := .of_eq rfl rfl
  obtain eq | ⟨b, free, -, eq⟩ := State.recount_cases s
  · rw [eq]
    exact flagged
  · rw [eq]
    exact (flagged.trans (State.setBuf_carries (s := s.flagged) free _)).trans (State.accept_carries _ _ _ _)

/-- A routine frame made is in flight (R118, R137). -/
theorem State.originate_holds {o : OwnFrame} {s t : State} (h : s.originate o = some t) (routine : o.cls = .routine) :
    t.HoldsOwn o.kind := by
  obtain ⟨u, bare, rfl⟩ := State.originate_eq_some h
  refine State.HoldsOwn.carried ?_ (State.recount_carries u)
  obtain ⟨-, b, -, rfl⟩ := State.originateBare_some bare
  generalize filled : (s.setBuf b { state := .queued, cls := some o.cls, frame := s.composeOwn o, level := none }).recordOwn o = v
  have buf : v.buf b = { state := .queued, cls := some o.cls, frame := s.composeOwn o, level := none } := by
    rw [← filled, State.buf_congr (State.recordOwn_keeps o _).1, State.buf_setBuf, if_pos rfl]
  have queued : (v.queueRoutine b .own).buf b =
      { state := .queued, cls := some o.cls, frame := s.composeOwn o, level := none } :=
    (State.buf_moveBuf b b .queued v).trans ((if_pos rfl).trans (by rw [buf]))
  rw [routine, State.accept_routine]
  refine State.HoldsOwn.carried ⟨_, List.mem_append_right _ (List.mem_append_right _ List.mem_cons_self), rfl, ?_, ?_⟩
    (State.select_carries (v.queueRoutine b .own))
  · refine (congrArg (fun x : Buffer => Frame.kind x.frame) queued).trans ?_
    cases o <;> rfl
  · exact fun free => absurd ((congrArg Buffer.state queued).symm.trans free) nofun

/-! ## The timers -/

/-- A timer of the supervision unit ends its fault and no other (R170, R171). -/
theorem clear_ends {dt : Us} {c : FaultCode} {sv : Sv} {s t : State} (keyed : s.TablesKeyed)
    (h : t = State.clear c s.cfg.address { s with now := s.now + dt, sv := sv }) :
    ¬ (State.finish s t).FaultActive c s.cfg.address ∧ (State.finish s t).sv = sv ∧ (State.finish s t).SameDetection s ∧
      ∀ c' a, (c', a) ≠ (c, s.cfg.address) → ((State.finish s t).FaultActive c' a ↔ s.FaultActive c' a) := by
  have before : (s.elapse dt).SameDetection { s with now := s.now + dt, sv := sv } := ⟨rfl, rfl, rfl, rfl, rfl, rfl, rfl, rfl⟩
  have frame := State.clear_frame c s.cfg.address { s with now := s.now + dt, sv := sv }
  rw [← h] at frame
  refine ⟨?_, ?_, (before.trans frame.sameDetection).finish, fun c' a other => ?_⟩
  · rw [State.finish_faultActive, h]
    exact State.clear_faultInactive keyed.faults
  · rw [State.finish_sv]
    exact frame.sv
  · rw [State.finish_faultActive, h]
    exact (State.clear_active _ _ _ _ _).trans (FaultLog.clear_other other)

/-- Settles O51: the timers' clears leave every other fault (`clear_ends`), and the look reports the oldest. -/
theorem supervisionTimers : Obligations.SupervisionTimers := by
  refine ⟨fun dt e s power due keyed => ⟨fun timer => ?_, fun timer => ?_⟩, fun dt e s power timer due => ?_,
    fun s => ⟨fun nothing => ?_, fun ⟨idle, r, hr⟩ cannot => ?_, ?_⟩⟩
  · exact ⟨_, exec_inRun (exec_stallTimerExpiry_due timer due) power, clear_ends keyed rfl⟩
  · exact ⟨_, exec_inRun (exec_failedTimerExpiry_due timer due) power, clear_ends keyed rfl⟩
  · exact exec_inRun (exec_reportRetryTimerExpiry_due timer due) power
  · refine State.look_none ?_
    refine Classical.byContradiction fun other => ?_
    obtain ⟨flight, some_⟩ := not_or.1 other
    obtain ⟨r, mem⟩ := List.exists_mem_of_ne_nil _ some_
    exact nothing ⟨Bool.eq_false_iff.2 flight, r, FaultLog.mem_unreported.1 mem⟩
  · exact State.look_retries idle (List.ne_nil_of_mem (FaultLog.mem_unreported.2 hr)) cannot
  · rintro ⟨idle, r, hr⟩ can keyed before
    have some_ := List.ne_nil_of_mem (FaultLog.mem_unreported.2 hr)
    obtain ⟨t, made, eq⟩ := State.look_reported idle some_ can
    obtain ⟨fu, b, free, -, cls, frame⟩ := State.originate_flood made nofun
    have unreported : ∀ x ∈ s.faults.candidates, x ∈ s.faults.unreported := fun x hx => List.mem_of_mem_take hx
    refine ⟨s.faults.candidates, b, fun x hx => FaultLog.mem_unreported.1 (unreported x hx), ?_, ?_, ?_, ?_, ?_, ?_, ?_, ?_,
      free, ?_, ?_⟩
    · exact List.length_pos_iff.2 fun none => some_ (FaultLog.candidates_eq_nil.1 (List.isEmpty_iff.2 none))
    · exact List.length_take_le _ _
    · exact ((s.faults.unreported_sorted keyed.faults).take).imp recordBefore_iff.1
    · intro x hx left
      obtain ⟨four, older⟩ := FaultLog.candidates_oldest keyed.faults (FaultLog.mem_unreported.2 hx) left
      exact ⟨four, fun y hy => recordBefore_iff.1 (older y hy)⟩
    · rw [eq]
      exact FaultLog.compose_candidates keyed.faults fun x hx => (FaultLog.mem_unreported.1 (unreported x hx)).1
    · exact (State.look_frame s).sameDetection.symm
    · rw [eq]
      exact congrArg Fu.seqCounter fu
    · have inFlight := (State.originate_holds made rfl).inFlight
      rw [eq]
      exact (State.ownInFlight_congr rfl rfl).trans inFlight
    · rw [eq]
      exact cls
    · rw [eq]
      refine frame.trans ?_
      simp only [OwnFrame.payload, List.length_map, List.flatMap_map]
      rfl

end Sys2Proof.Machine
end

section
/-! SUPPORT. The input lines and the test line's presses (11.5). -/
namespace Sys2Proof.Machine

/-- Leaving DOZE begins the settle (R165, R166). -/
theorem State.leaveDoze_eq (s : State) : s.leaveDoze = { s with su := { s.su with
    power := .run
    settleEnd := if s.su.power = .doze then some (s.now + 500 * 2 ^ s.cfg.settleCode) else s.su.settleEnd } } := by
  unfold State.leaveDoze
  cases power : s.su.power with
  | run =>
    rw [if_neg (by nofun)]
    conv => rhs; rw [← power]
  | doze => rfl

/-- A monitored line's edge starts its debounce and wakes the station (R165, R192). -/
theorem exec_inputEdge_seen {dt : Us} {line : InputLine} {s : State} (debounced : s.debounces line = true) :
    exec (.inputEdge dt line) s = .next (State.finish s { s with
      now := s.now + dt
      lu := s.lu.setInput line { s.lu.input line with
        raw := !(s.lu.input line).raw, debounce := some (s.now + dt + 50000) }
      su := { s.su with
        power := .run
        settleEnd := if s.su.power = .doze then some (s.now + dt + 500 * 2 ^ s.cfg.settleCode) else s.su.settleEnd } }) := by
  change execInputEdge dt line s = _
  refine State.event_eq ?_
  have seen : (s.elapse dt).debounces line = true := debounced
  rw [if_pos seen, State.leaveDoze_eq, seen]
  rfl

/-- Any other line's edge changes its level alone (R192). -/
theorem exec_inputEdge_unseen {dt : Us} {line : InputLine} {s : State} (other : s.debounces line = false) :
    exec (.inputEdge dt line) s = .next (State.finish s { s with
      now := s.now + dt
      lu := s.lu.setInput line { s.lu.input line with raw := !(s.lu.input line).raw } }) := by
  change execInputEdge dt line s = _
  refine State.event_eq ?_
  have unseen : (s.elapse dt).debounces line = false := other
  rw [if_neg (by rw [unseen]; nofun), unseen]
  rfl

/-- The end of a debounce that changes nothing, or comes before the inputs act (R192). -/
theorem exec_debounceEnd_still {dt e : Us} {line : InputLine} {s : State}
    (debounce : (s.lu.input line).debounce = some e) (due : e ≤ s.now + dt)
    (still : (s.lu.input line).raw = (s.lu.input line).level ∨ s.actsOnInputs = false) :
    exec (.debounceEnd dt line) s = .next (State.finish s ((s.elapse dt).setInput line
      { s.lu.input line with level := (s.lu.input line).raw, debounce := none })) := by
  refine State.event_eq ?_
  have met : (s.elapse dt).due (s.lu.input line).debounce = true := by rw [debounce]; exact State.due_of due
  refine (if_pos met).trans ?_
  by_cases same : (s.lu.input line).raw = (s.lu.input line).level
  · exact if_pos same
  · have idle := still.resolve_left same
    exact (if_neg same).trans (if_neg (by
      change ¬ s.actsOnInputs = true
      rw [idle]
      nofun))

theorem State.actsOnInputs_iff {s : State} : s.actsOnInputs = true ↔ s.sc.learning = .ended ∧ s.sc.inert = false := by
  simp [State.actsOnInputs]

/-! ## A short press (R191, R192) -/

/-- The state pattern's 2 s run, and the LED is chosen (R191). -/
theorem State.showStatePattern_eq (at_ : Us) (s : State) : ∃ led start next, s.showStatePattern at_ = { s with lu := { s.lu with
    statePattern := some (at_ + 2000000), led := led, ledStart := start, ledNext := next } } := by
  unfold State.showStatePattern
  dsimp only
  split
  · exact ⟨_, _, _, rfl⟩
  · unfold State.ledChoose
    split
    · exact ⟨_, _, _, rfl⟩
    · exact ⟨_, _, _, rfl⟩

/-- A self-test starts with its scan (R179). -/
theorem State.startSelfTest_idle {s : State} (idle : s.sv.selfTest = .idle) :
    s.startSelfTest = State.requestScan .selfTest { s with sv := { s.sv with selfTest := .scanning } } := if_pos idle

theorem State.startSelfTest_of {s : State} (busy : s.sv.selfTest ≠ .idle) : s.startSelfTest = s := if_neg busy

/-- Settles O54: edges, the debounced changes of the test line, and the long press. -/
theorem testLine : Obligations.TestLine := by
  refine ⟨?_, ?_, fun dt e s press due level power => ⟨fun idle => ?_, fun busy => ?_⟩⟩
  · intro dt s reset edge level seen unseen
    have panel (p : s.isPanel = true) (line : InputLine) : s.debounces line = true := by
      simp [State.debounces, reset, p]
    refine ⟨exec_inputEdge_seen (by simp [State.debounces, reset]), fun p => ⟨exec_inputEdge_seen (panel p _),
      exec_inputEdge_seen (panel p _), exec_inputEdge_seen (panel p _)⟩, fun p config => ?_⟩
    have other (line : InputLine) (h : line ≠ .test) : s.debounces line = false := by
      simp [State.debounces, reset, p, Option.isSome_iff_ne_none.2 config, h]
    exact ⟨exec_inputEdge_unseen (other _ nofun), exec_inputEdge_unseen (other _ nofun), exec_inputEdge_unseen (other _ nofun)⟩
  · intro dt e s debounce due settled
    refine ⟨fun still => ?_, fun learned active raw level => ?_, fun p learned active raw level press running power => ?_⟩
    · refine exec_debounceEnd_still (line := .test) debounce due ?_
      rcases still with same | early | inert
      · exact .inl same
      · exact .inr (Bool.eq_false_iff.2 (mt State.actsOnInputs_iff.1 fun h => early h.1))
      · exact .inr (Bool.eq_false_iff.2 (mt State.actsOnInputs_iff.1 fun h => by rw [inert] at h; cases h.2))
    · rw [exec_debounceEnd_due (line := .test) debounce due (by
        change s.lu.test.raw ≠ s.lu.test.level
        rw [raw, level]
        nofun) (State.actsOnInputs_iff.2 ⟨learned, active⟩)]
      change Host.Outcome.next (State.finish s (State.testChanged s.lu.test.raw _)) = _
      rw [raw]
      rfl
    · have change_ : s.lu.test.raw ≠ s.lu.test.level := by rw [raw, level]; nofun
      generalize x_eq : (s.elapse dt).setInput .test { s.lu.test with level := s.lu.test.raw, debounce := none } = x
      have run : exec (.debounceEnd dt .test) s = .next (State.finish s (State.inputChanged .test s.lu.test.raw x)) := by
        rw [← x_eq]
        exact exec_debounceEnd_due (line := .test) debounce due change_ (State.actsOnInputs_iff.2 ⟨learned, active⟩)
      have press' : x.lu.press = some p := by rw [← x_eq]; exact press
      have early : x.now < p := by rw [← x_eq]; exact running
      have work : State.inputChanged .test s.lu.test.raw x =
          State.shortPress x.now { x with lu := { x.lu with press := none } } := by
        change x.testChanged s.lu.test.raw = _
        rw [raw, State.testChanged_release press' early, State.timerWork_eq, if_neg]
        · rfl
        · rw [← x_eq]
          change ¬ s.su.power = .doze
          rw [power]
          nofun
      obtain ⟨led, start, next, shown⟩ := State.showStatePattern_eq x.now { x with lu := { x.lu with press := none } }
      have asked := State.requestObservation_frame
        (State.showStatePattern x.now { x with lu := { x.lu with press := none } })
      rw [work] at run
      refine ⟨_, run, ?_, ?_, ?_, ?_, ?_, fun can => ?_⟩ <;> rw [State.shortPress]
      · rw [State.finish_lu_press, asked.lu, shown]
      · rw [State.finish_lu_test, asked.lu, shown, ← x_eq]
        exact raw
      · rw [State.finish_lu_statePattern, asked.lu, shown, ← x_eq]
        rfl
      · rw [State.finish_sv, asked.sv, shown, ← x_eq]
        rfl
      · have before : (s.elapse dt).SameDetection (State.showStatePattern x.now { x with lu := { x.lu with press := none } }) := by
          rw [shown, ← x_eq]
          exact ⟨rfl, rfl, rfl, rfl, rfl, rfl, rfl, rfl⟩
        exact (before.trans asked.fault.sameDetection).finish
      · have can' : (State.showStatePattern x.now { x with lu := { x.lu with press := none } }).CanOriginate .routine := by
          rw [shown, ← x_eq]
          exact (State.canOriginate_congr rfl rfl).2 can
        exact (State.ownInFlight_congr (State.finish_pool _ _) (State.finish_tu _ _)).trans
          (State.requestObservation_inFlight (.inr can'))
  · have run := exec_inRun (exec_longPress_due press due level) power
    obtain ⟨mu, guards, eq, -⟩ := State.requestScan_eq .selfTest { s with
      now := s.now + dt, lu := { s.lu with press := none }, sv := { s.sv with selfTest := .scanning } }
    obtain ⟨⟨x, scan, awaited⟩, -⟩ := State.requestScan_awaited { s with
      now := s.now + dt, lu := { s.lu with press := none }, sv := { s.sv with selfTest := .scanning } }
    have started : State.perform .longPress { s with now := s.now + dt, lu := { s.lu with press := none } } = _ :=
      State.startSelfTest_idle idle
    rw [started] at run
    refine ⟨_, run, ?_, ?_, ⟨x, ?_, awaited⟩, ?_, ?_, ?_, ?_⟩
    · rw [State.finish_lu_press, eq]
    · rw [State.finish_sv, eq]
    · rw [State.finish_mu, scan]
    · rw [State.finish_det, eq]
    · rw [State.finish_ev, eq]
    · rw [State.finish_nt, eq]
    · rw [State.finish_fu, eq]
  · rw [exec_inRun (exec_longPress_due press due level) power]
    exact congrArg (fun t => Host.Outcome.next (State.finish s t)) (State.startSelfTest_of busy)

end Sys2Proof.Machine
end

section
/-! SUPPORT. The reads of the configuration record and the self-test's re-read (10.6, 11.2, 11.3). -/
namespace Sys2Proof.Machine

/-! ## Attempts -/

/-- The next attempt begins under its own guard (R187). -/
theorem State.beginRead_eq (n : Nat) (p : ReadPurpose) (s : State) : s.beginRead n p = { s with
    sc := { s.sc with read := some { number := n, serial := s.sc.attempts + 1, purpose := p }
                      attempts := s.sc.attempts + 1 }
    guards := { s.guards with configRead := some (s.now + 100000) } } := rfl

/-- An inert station shows the triple flash, and nothing else of it changes (R188, R191). -/
theorem State.becomeInert_eq (s : State) : ∃ start next, s.becomeInert = { s with
    sc := { s.sc with read := none, inert := true }
    lu := { s.lu with led := .tripleFlash, ledStart := start, ledNext := next } } := by
  have choice : State.ledChoice { s with sc := { s.sc with read := none, inert := true } } = .tripleFlash := if_pos rfl
  unfold State.becomeInert State.ledChoose
  rw [choice]
  split
  · rename_i shown
    refine ⟨s.lu.ledStart, s.lu.ledNext, ?_⟩
    rw [shown]
  · exact ⟨_, _, rfl⟩

theorem State.finish_becomeInert {s0 : State} (s : State) (fires : s.fu.fires = s0.fu.fires)
    (overflow : s.fu.overflow = s0.fu.overflow) : (State.finish s0 s.becomeInert).lu.led = .tripleFlash := by
  obtain ⟨start, next, eq⟩ := s.becomeInert_eq
  rw [eq]
  exact State.finish_lu_of_fires fires overflow

/-- An end is taken for the attempt in progress alone (R187, log 24). -/
theorem exec_configReadAttemptEnd_late {dt k : Nat} {bytes : List Byte} {s : State}
    (late : s.guards.configRead = none ∨ ∀ r ∈ s.sc.read, r.serial ≠ k) :
    exec (.configReadAttemptEnd dt k bytes) s = .next (State.finish s { s with now := s.now + dt }) := by
  have none : (s.elapse dt).readInProgress k = none := by
    unfold State.readInProgress
    split
    · rename_i runs
      rw [Option.filter_eq_none_iff]
      intro r mem
      rw [decide_eq_true_iff]
      exact (late.resolve_left (Option.isSome_iff_ne_none.1 runs)) r mem
    · rfl
  change execConfigReadAttemptEnd dt k bytes s = _
  refine State.event_eq ?_
  simp only [none]
  rfl

theorem exec_configReadAttemptEnd_taken {dt k : Nat} {bytes : List Byte} {r : ReadAttempt} {s : State}
    (guard : s.guards.configRead ≠ none) (read : s.sc.read = some r) (serial : r.serial = k) :
    exec (.configReadAttemptEnd dt k bytes) s = .next (State.finish s ((s.elapse dt).readEnded r bytes)) := by
  have taken : (s.elapse dt).readInProgress k = some r := by
    unfold State.readInProgress
    rw [if_pos (show (s.elapse dt).guards.configRead.isSome = true from Option.isSome_iff_ne_none.2 guard)]
    change s.sc.read.filter _ = _
    rw [read, Option.filter_some, if_pos (decide_eq_true serial)]
  change execConfigReadAttemptEnd dt k bytes s = _
  refine State.event_eq ?_
  simp only [taken]

/-! ## The self-test's answer (R181) -/

/-- The last item's answer ends the self-test: its record is cleared or raised, and the rest stands (R181). -/
theorem State.selfTestAnswer_frame (good : Bool) (s : State) : State.FaultFrame
    { s with sv := { s.sv with selfTest := .idle, selfTestEnded := true } } (s.selfTestAnswer good) := by
  have item := State.recordItem_frame 6 good s
  exact { item with sv := congrArg (fun v => ({ v with selfTest := .idle, selfTestEnded := true } : Sv)) item.sv }

theorem State.selfTestAnswer_reports (good : Bool) (s : State) : s.Reports (s.selfTestAnswer good) := by
  have item : s.Reports (s.recordItem 6 good) := by
    unfold State.recordItem
    split
    · exact State.clear_reports _ _ s
    · exact State.raise_reports _ _ s
  exact item.trans (.of_eq rfl rfl rfl rfl rfl rfl)

theorem State.selfTestAnswer_good {s : State} (keyed : (s.faults.records.map (fun r => (r.code, r.subject))).Nodup) :
    ¬ (s.selfTestAnswer true).FaultActive .selfTest (itemSubject s.cfg.address 6) := State.clear_faultInactive keyed

theorem State.selfTestAnswer_failed {s : State} (storable : s.FaultStorable .selfTest (itemSubject s.cfg.address 6)) :
    (s.selfTestAnswer false).FaultActive .selfTest (itemSubject s.cfg.address 6) := State.raise_faultActive storable

/-- An applied record keeps its restart count (R186). -/
theorem Record.apply_restartCount {bytes : List Byte} {c : ConfigRecord} (apply : Record.apply bytes = some c) :
    c.restartCount = bytes.getD 39 0 := by
  unfold Record.apply at apply
  split at apply
  · cases apply
  · split at apply
    · cases apply
      rfl
    · cases apply

/-- An unusable attempt of the start-up makes the station inert (R187, R188). -/
theorem State.readEnded_inert {r : ReadAttempt} {bytes : List Byte} {s : State} (purpose : r.purpose = .startUp)
    (unusable : Record.good bytes = true ∧ Record.apply bytes = none ∨ Record.good bytes = false ∧ 3 ≤ r.number) :
    s.readEnded r bytes = State.becomeInert { s with
      sc := { s.sc with bytes := if Record.good bytes = true then some bytes else s.sc.bytes }
      guards := { s.guards with configRead := none } } := by
  rw [State.readEnded]
  obtain ⟨good, apply⟩ | ⟨bad, third⟩ := unusable
  · rw [if_pos good, if_pos good]
    simp only [State.readGood, purpose, apply]
    rfl
  · have bad' : ¬ Record.good bytes = true := by rw [bad]; nofun
    rw [if_neg bad', if_neg bad', State.readFailed, if_neg (Nat.not_lt.2 third)]
    simp only [purpose]
    rfl

/-- The re-read's last attempt answers the self-test (R181). -/
theorem State.readEnded_selfTest {r : ReadAttempt} {bytes : List Byte} {s : State} (purpose : r.purpose = .selfTest)
    (ends : Record.good bytes = true ∨ 3 ≤ r.number) : s.readEnded r bytes = State.selfTestAnswer (Record.good bytes) { s with
      sc := { s.sc with read := none }
      guards := { s.guards with configRead := none } } := by
  rw [State.readEnded]
  cases good : Record.good bytes with
  | true =>
    rw [if_pos rfl]
    simp only [State.readGood, purpose]
    rfl
  | false =>
    have third := ends.resolve_left (by rw [good]; nofun)
    rw [if_neg (by nofun), State.readFailed, if_neg (Nat.not_lt.2 third)]
    simp only [purpose]
    rfl

/-- Settles O6: the attempt in progress ends good, unusable, or failed, for either purpose. -/
theorem readAttemptEnd : Obligations.ReadAttemptEnd := by
  refine ⟨fun dt k bytes s late => exec_configReadAttemptEnd_late late, ?_, ?_, ?_, ?_⟩
  · intro dt n k bytes c s guard read length good apply counted
    have run := exec_configReadAttemptEnd_taken (dt := dt) (bytes := bytes) guard read rfl
    rw [run, State.readEnded, if_pos good]
    simp only [State.readGood, apply]
    rw [State.applyRecord, Record.countWrite, Record.apply_restartCount apply]
    rfl
  · intro dt n k bytes s guard read unusable
    have run := exec_configReadAttemptEnd_taken (dt := dt) (bytes := bytes) guard read rfl
    rw [State.readEnded_inert rfl unusable] at run
    generalize x_eq : ({ s.elapse dt with
      sc := { s.sc with bytes := if Record.good bytes = true then some bytes else s.sc.bytes }
      guards := { s.guards with configRead := none } } : State) = x
    have run' : exec (.configReadAttemptEnd dt k bytes) s = .next (State.finish s x.becomeInert) := by rw [run, ← x_eq]; rfl
    have led := State.finish_becomeInert (s0 := s) x (by rw [← x_eq]; rfl) (by rw [← x_eq]; rfl)
    obtain ⟨start, next, eq⟩ := x.becomeInert_eq
    refine ⟨_, run', ?_, ?_, led, ?_, ?_, ?_, ?_, ?_, ?_⟩
    · rw [State.finish_sc, eq, ← x_eq]
    · rw [State.finish_guards, eq, ← x_eq]
    · rw [State.finish_mu, eq, ← x_eq]
      rfl
    · rw [State.finish_ev, eq, ← x_eq]
      rfl
    · rw [State.finish_radio, eq, ← x_eq]
      rfl
    · rw [State.finish_tu, eq, ← x_eq]
      rfl
    · rw [State.finish_pool, eq, ← x_eq]
      rfl
    · rw [State.finish_fu, eq, ← x_eq]
      rfl
  · intro dt n k bytes p s guard read bad few
    have run := exec_configReadAttemptEnd_taken (dt := dt) (bytes := bytes) guard read rfl
    rw [run, State.readEnded, if_neg (by rw [bad]; nofun), State.readFailed, if_pos few]
    rfl
  · intro dt n k bytes s guard read ends keyed
    have run := exec_configReadAttemptEnd_taken (dt := dt) (bytes := bytes) guard read rfl
    rw [State.readEnded_selfTest rfl ends] at run
    generalize x_eq : ({ s.elapse dt with
      sc := { s.sc with read := none }
      guards := { s.guards with configRead := none } } : State) = x at run
    have run' : exec (.configReadAttemptEnd dt k bytes) s =
        .next (State.finish s (x.selfTestAnswer (Record.good bytes))) := by rw [run, ← x_eq]; rfl
    have frame := State.selfTestAnswer_frame (Record.good bytes) x
    have reports := State.selfTestAnswer_reports (Record.good bytes) x
    refine ⟨_, run', ?_, ?_, ?_, ?_, ?_, fun good => ?_, fun bad storable => ?_⟩
    · rw [State.finish_sv, frame.sv, ← x_eq]
      rfl
    · rw [State.finish_sc, frame.sc, ← x_eq]
    · rw [State.finish_ev, frame.ev, ← x_eq]
      rfl
    · rw [State.finish_fu, frame.run, ← x_eq]
      rfl
    · rw [State.finish_guards, reports.guards, ← x_eq]
    · rw [State.finish_faultActive, good]
      have := State.selfTestAnswer_good (s := x) (by rw [← x_eq]; exact keyed.faults)
      rw [← x_eq] at this ⊢
      exact this
    · rw [State.finish_faultActive, bad]
      have := State.selfTestAnswer_failed (s := x) (by rw [← x_eq]; exact storable)
      rw [← x_eq] at this ⊢
      exact this

/-! ## The read guard's expiry (R168, R187) -/

/-- Settles O8: GUARD-EXPIRED is counted, then the attempt has failed (`State.readFailed`). -/
theorem readGuardExpiry : Obligations.ReadGuardExpiry := by
  intro dt n k e p s read timer due settled
  have run := exec_settled (exec_guardExpiry_due (g := .configRead) timer due) settled
  generalize x_eq : State.count .guardExpired { s with now := s.now + dt, guards := s.guards.put .configRead none } = x
  have sc : x.sc = s.sc := by rw [← x_eq]; rfl
  have guards : x.guards = { s.guards with configRead := none } := by rw [← x_eq]; rfl
  have now : x.now = s.now + dt := by rw [← x_eq]; rfl
  have counts (c : Counter) : x.counter c =
      if c = .guardExpired then min 65535 (s.counter .guardExpired + 1) else s.counter c := by
    rw [← x_eq]
    exact State.counter_count _ _ _
  have counted (t : State) (same : t.counters = x.counters) :
      (State.finish s t).counter .guardExpired = min 65535 (s.counter .guardExpired + 1) ∧
        ∀ c, c ≠ .guardExpired → (State.finish s t).counter c = s.counter c := by
    have all (c : Counter) : (State.finish s t).counter c = x.counter c := by
      rw [State.finish_counter, State.counter, same]
      rfl
    exact ⟨(all _).trans ((counts _).trans (if_pos rfl)), fun c other => (all c).trans ((counts c).trans (if_neg other))⟩
  have run' : exec (.configReadGuardExpiry dt) s = .next (State.finish s (x.readFailed { number := n, serial := k, purpose := p })) := by
    rw [← x_eq]
    refine Eq.trans run (congrArg (fun t => Host.Outcome.next (State.finish s t)) ?_)
    change State.readExpired _ = _
    simp only [State.readExpired, read]
  by_cases few : n < 3
  · have next : x.readFailed { number := n, serial := k, purpose := p } = x.beginRead (n + 1) p := if_pos few
    rw [next] at run'
    obtain ⟨one, others⟩ := counted (x.beginRead (n + 1) p) rfl
    refine ⟨_, run', one, others, fun _ => ⟨?_, ?_, ?_, ?_, ?_, ?_, ?_⟩, fun third => absurd few (Nat.not_lt.2 third),
      ?_, ?_, ?_, ?_, ?_, ?_⟩
    · rw [State.finish_sc, State.beginRead_eq, sc]
    · rw [State.finish_guards, State.beginRead_eq, guards, now]
    · rw [State.finish_sv, State.beginRead_eq, ← x_eq]; rfl
    · rw [State.finish_faults, State.beginRead_eq, ← x_eq]; rfl
    · rw [State.finish_fu, State.beginRead_eq, ← x_eq]; rfl
    · rw [State.finish_tu, State.beginRead_eq, ← x_eq]; rfl
    · rw [State.finish_pool, State.beginRead_eq, ← x_eq]; rfl
    · rw [State.finish_mu, State.beginRead_eq, ← x_eq]; rfl
    · rw [State.finish_ev, State.beginRead_eq, ← x_eq]; rfl
    · rw [State.finish_det, State.beginRead_eq, ← x_eq]; rfl
    · rw [State.finish_nt, State.beginRead_eq, ← x_eq]; rfl
    · rw [State.finish_fu, State.beginRead_eq, ← x_eq]; rfl
    · rw [State.finish_fu, State.beginRead_eq, ← x_eq]; rfl
  · have third := Nat.not_lt.1 few
    cases p with
    | startUp =>
      have inert : x.readFailed { number := n, serial := k, purpose := .startUp } = x.becomeInert := if_neg few
      rw [inert] at run'
      obtain ⟨start, next, eq⟩ := x.becomeInert_eq
      obtain ⟨one, others⟩ := counted x.becomeInert (by rw [eq])
      have led := State.finish_becomeInert (s0 := s) x (by rw [← x_eq]; rfl) (by rw [← x_eq]; rfl)
      refine ⟨_, run', one, others, fun k => absurd k few, fun _ => ⟨?_, fun _ => ⟨?_, led, ?_, ?_, ?_, ?_, ?_⟩, nofun⟩,
        ?_, ?_, ?_, ?_, ?_, ?_⟩
      · rw [State.finish_guards, eq, guards]
      · rw [State.finish_sc, eq, sc]
      · rw [State.finish_sv, eq, ← x_eq]; rfl
      · rw [State.finish_faults, eq, ← x_eq]; rfl
      · rw [State.finish_fu, eq, ← x_eq]; rfl
      · rw [State.finish_tu, eq, ← x_eq]; rfl
      · rw [State.finish_pool, eq, ← x_eq]; rfl
      · rw [State.finish_mu, eq, ← x_eq]; rfl
      · rw [State.finish_ev, eq, ← x_eq]; rfl
      · rw [State.finish_det, eq, ← x_eq]; rfl
      · rw [State.finish_nt, eq, ← x_eq]; rfl
      · rw [State.finish_fu, eq, ← x_eq]; rfl
      · rw [State.finish_fu, eq, ← x_eq]; rfl
    | selfTest =>
      generalize y_eq : ({ x with sc := { x.sc with read := none } } : State) = y
      have answer : x.readFailed { number := n, serial := k, purpose := .selfTest } = y.selfTestAnswer false := by
        rw [← y_eq]
        exact if_neg few
      rw [answer] at run'
      have frame := State.selfTestAnswer_frame false y
      have reports := State.selfTestAnswer_reports false y
      obtain ⟨one, others⟩ := counted (y.selfTestAnswer false) (by rw [reports.counters, ← y_eq])
      refine ⟨_, run', one, others, fun k => absurd k few, fun _ => ⟨?_, nofun, fun _ => ⟨?_, ?_, fun storable => ?_⟩⟩,
        ?_, ?_, ?_, ?_, ?_, ?_⟩
      · rw [State.finish_guards, reports.guards, ← y_eq]
        exact congrArg Guards.configRead guards
      · rw [State.finish_sc, frame.sc, ← y_eq, sc]
      · rw [State.finish_sv, frame.sv, ← y_eq, ← x_eq]; rfl
      · rw [State.finish_faultActive]
        have := State.selfTestAnswer_failed (s := y) (by rw [← y_eq, ← x_eq]; exact storable)
        rw [← y_eq, ← x_eq] at this ⊢
        exact this
      · rw [State.finish_mu, frame.mu, ← y_eq, ← x_eq]; rfl
      · rw [State.finish_ev, frame.ev, ← y_eq, ← x_eq]; rfl
      · rw [State.finish_det, frame.det, ← y_eq, ← x_eq]; rfl
      · rw [State.finish_nt, frame.nt, ← y_eq, ← x_eq]; rfl
      · rw [State.finish_fu, frame.fires, ← y_eq, ← x_eq]; rfl
      · rw [State.finish_fu, frame.epoch, ← y_eq, ← x_eq]; rfl

end Sys2Proof.Machine
end

section
/-! SUPPORT. The self-test's scan items (10.6), with a state whose fault list holds a pair twice: no command reaches it, and the
raise of a further pair takes the ACTIVE record of that pair away with the CLEARED one. -/
namespace Sys2Proof.Machine

/-- The record of a HEAT station 0x0205. -/
def heatRecord : ConfigRecord :=
  { networkId := 1, address := 0x0205, zone := 3, role := .heat, channel := 2, hopLimit := 12, observationPeriod := 60,
    healthPeriod := 6, settleCode := 1, serviceApplies := true,
    normal := { watch := 250, alarm := 600, confirm := 1400, verifyMax := 120 },
    service := { watch := 400, alarm := 800, confirm := 2000, verifyMax := 180 },
    verifySolo := 30, gain := 256, smokeFull := 800, ratioMin := 20, rorFloor := 8, warmLevel := 160, heatLimit := 232,
    lowBattery := 600, restartCount := 16 }

/-- A reported record of a pair. -/
def reportedRecord (c : FaultCode) (subject : Addr) (active : Bool) : FaultRecord :=
  { code := c, subject := subject, active := active, reported := true, composed := false, raisedAt := 0 }

/-- A full fault list in which item 4 of the self-test has two records, an ACTIVE and a CLEARED one. -/
def itemTwice : List FaultRecord :=
  [reportedRecord .selfTest 0x0204 true, reportedRecord .selfTest 0x0204 false, reportedRecord .scanStall 0x0205 true,
   reportedRecord .neighbourLost 1 true, reportedRecord .neighbourLost 2 true, reportedRecord .neighbourLost 3 true,
   reportedRecord .neighbourLost 4 true, reportedRecord .neighbourLost 5 true]

/-- The scan in flight, awaited by the self-test. -/
def awaitedScan : Scan := { seq := 0, startedAt := 0, awaitedLearning := false, awaitedSelfTest := true }

/-- A HEAT station whose self-test awaits the scan in flight, with that list. -/
def stationItemTwice : State :=
  { State.reset with
    faults := { FaultLog.initial with records := itemTwice }
    mu := { Mu.initial with scan := some awaitedScan }
    guards := { Guards.initial with scan := some 0 }
    sc := { Sc.initial none with inReset := false, config := some heatRecord, learning := .ended } }

/-- Neither an ACTIVE record of item 4 nor the storage-loss mark. -/
def State.itemFourUntold (s : State) : Bool :=
  !s.faults.storageLoss && s.faults.records.all (fun r => !(r.isFor .selfTest 0x0204 && r.active))

/-- A property of the state an outcome brings. -/
def Outcome.brings (p : State → Bool) (o : Host.Outcome State Fault Refusal) : Bool :=
  match o with
  | .next t => p t
  | .fault _ => true
  | .refused _ => true

/-- Item 4 fails, finds its pair ACTIVE, and is stored nowhere: the raise of item 5 takes the place of item 4's CLEARED record
and removes every record of that pair. -/
theorem itemFour_lost : Outcome.brings State.itemFourUntold (exec (.scanGuardExpiry 0) stationItemTwice) = true := by decide

theorem State.itemFourUntold_iff {s : State} : s.itemFourUntold = true ↔
    s.faults.storageLoss = false ∧ ¬ s.FaultActive .selfTest 0x0204 := by
  simp [State.itemFourUntold, State.FaultActive, FaultRecord.isFor, Decidable.imp_iff_not_or, or_assoc]

/-- Refutes O16: in `stationItemTwice`, which has two records of one pair, item 4 is neither ACTIVE nor the loss marked. -/
theorem not_scanGuardAbandons : ¬ Obligations.ScanGuardAbandons := by
  intro h
  obtain ⟨t, run, -, -, -, -, -, -, -, -, -, -, -, -, -, items⟩ :=
    h 0 0 awaitedScan stationItemTwice rfl rfl (Nat.zero_le _) (by decide)
  obtain ⟨-, -, -, told⟩ := items rfl
  have untold := itemFour_lost
  rw [run] at untold
  obtain ⟨stored, active⟩ := State.itemFourUntold_iff.1 untold
  rcases told 4 (by decide) with k | k
  · exact active k
  · rw [stored] at k
    cases k

end Sys2Proof.Machine
end

section
/-! SUPPORT. The profile line, the start of the alert list and the end of step 3 (8.9, 9.1, 11.3, 11.5). -/
namespace Sys2Proof.Machine

/-! ## A PROFILE asked for, and the own detection unit told (R154, R193) -/

/-- A PROFILE asked for, and then the own detection unit (R154, log 37). -/
def State.profileTold (p : Profile) (s : State) : State := (s.askProfile p).profileRequest p

/-- Another detection record beside a frame. -/
theorem State.FaultFrame.with_det {s t : State} (h : s.FaultFrame t) (d : Detection) :
    State.FaultFrame { s with det := d } { t with det := d } := { h with det := rfl }

theorem State.profileTold_frame (p : Profile) (s : State) :
    State.FaultFrame { s with det := s.det.requested s.cfg.serviceApplies s.now p } (s.profileTold p) := by
  have asked := State.askProfile_frame p s
  have same : s.det.requested s.cfg.serviceApplies s.now p =
      (s.askProfile p).det.requested (s.askProfile p).cfg.serviceApplies (s.askProfile p).now p := by
    rw [asked.det, asked.fault.cfg, asked.now]
  rw [same]
  exact (asked.fault.with_det _).trans (State.profileRequest_frame p (s.askProfile p))

theorem State.profileTold_can {p : Profile} {s : State} (can : s.CanOriginate .routine) :
    (s.profileTold p).fu = { s.fu with
      seqCounter := s.fu.seqCounter + 1
      seen := (seenTake s.ms s.cfg.address s.fu.run s.fu.seqCounter s.fu.seen).2 } ∧
    ∃ b, (s.buf b).state = .free ∧ ((s.profileTold p).buf b).cls = some .routine ∧
      ((s.profileTold p).buf b).frame = Frame.compose s.cfg kindProfile
        (floodHeader s.cfg s.fu.run s.fu.seqCounter s.fu.epoch ++ [p.code]) := by
  obtain ⟨t, made, eq⟩ := State.askProfile_of_can p can
  obtain ⟨fu, b, free, taken, cls, frame⟩ := State.originate_flood made nofun
  have offers := State.profileRequest_offers p (s.askProfile p)
  rw [eq] at offers
  obtain ⟨-, cls', frame', -⟩ := offers.frames b taken
  rw [State.profileTold, eq]
  exact ⟨offers.fu.trans fu, b, free, cls'.trans cls, frame'.trans frame⟩

theorem State.profileTold_cannot {p : Profile} {s : State} (cannot : ¬ s.CanOriginate .routine) :
    (s.profileTold p).fu = { s.fu with pendingProfile := some p } := by
  rw [State.profileTold, (State.profileRequest_offers p _).fu, State.askProfile_of_cannot p cannot]

/-- The refresh timer follows the profile line (R154). -/
theorem State.profileChange_eq (p : Profile) (s : State) : s.profileChange p = { s.profileTold p with
    fu := { (s.profileTold p).fu with profileRefresh := if p = .service then some (s.now + 1800000000) else none } } := rfl

/-- A profile request leaves the detection record but for the profile items (R54). -/
theorem Detection.requested_writes (applies : Bool) (now : Us) (p : Profile) (d : Detection) : ∃ profile pending limit,
    d.requested applies now p = { d with profile := profile, pendingProfile := pending, serviceLimit := limit } := by
  unfold Detection.requested
  split
  · split
    · split
      · exact ⟨_, _, _, rfl⟩
      · exact ⟨_, _, _, rfl⟩
    · split
      · exact ⟨_, _, _, rfl⟩
      · exact ⟨_, _, _, rfl⟩
  · exact ⟨_, _, _, rfl⟩

/-! ## The end of step 3 (R190, R193) -/

/-- The event that ends step 3, before the profile line is read: the observation timer and its OBSERVATION, and a self-test
(R190). -/
def State.step3Ended (s : State) : State :=
  (State.requestObservation (State.restartObservation
    { s with sc := { s.sc with learning := .ended, learnLimit := none } })).startSelfTest

theorem State.endStep3_eq (s : State) : s.endStep3 = s.step3Ended.readProfileLine := rfl

/-- Only a PANEL station reads SERVICE from its line (R193). -/
theorem State.readProfileLine_of {s : State} (h : ¬ (s.isPanel = true ∧ s.lu.profileLine.level = true)) :
    s.readProfileLine = s := if_neg (by rw [Bool.and_eq_true]; exact h)

theorem State.readProfileLine_service {s : State} (panel : s.isPanel = true) (level : s.lu.profileLine.level = true) :
    s.readProfileLine = s.profileChange .service := if_pos (by rw [panel, level]; rfl)

/-- What the observation timer's start leaves (R59). -/
theorem State.restartObservation_eq (s : State) : ∃ d e, s.restartObservation = { s with
    draws := d, det := { s.det with observation := some e } } := by
  by_cases quiet : s.det.state = .quiet
  · obtain ⟨j, -, eq⟩ := State.startObservationAt_quiet s.now quiet
    exact ⟨_, _, eq⟩
  · exact ⟨s.draws, _, State.startObservationAt_other s.now quiet⟩

/-- The state in which the end of step 3 asks for its OBSERVATION (R190). -/
theorem State.step3Ended_eq (s : State) : ∃ d e u,
    u = ({ s with
      draws := d
      sc := { s.sc with learning := .ended, learnLimit := none }
      det := { s.det with observation := some e } } : State) ∧ s.step3Ended = u.requestObservation.startSelfTest := by
  obtain ⟨d, e, eq⟩ := State.restartObservation_eq { s with sc := { s.sc with learning := .ended, learnLimit := none } }
  exact ⟨d, e, _, rfl, by rw [State.step3Ended, eq]⟩

/-- A request is merged into the scan in flight (R6). -/
theorem State.requestScan_merges {r : Requester} {s : State} {x : Scan} (scan : s.mu.scan = some x) :
    s.requestScan r = { s with mu := { s.mu with scan := some (x.merged r) } } := by
  simp only [State.requestScan, scan]

theorem State.requestScan_restartWrite (r : Requester) (s : State) :
    (s.requestScan r).guards.restartWrite = s.guards.restartWrite := by
  unfold State.requestScan
  split <;> rfl

/-- A self-test asked for changes the measurement unit, the scan guard and its own progress alone (R179). -/
theorem State.startSelfTest_eq (s : State) : ∃ mu guards sv, s.startSelfTest = { s with mu := mu, guards := guards, sv := sv } ∧
    guards = { s.guards with scan := guards.scan } ∧ mu = { s.mu with scan := mu.scan, seq := mu.seq } ∧
    sv = { s.sv with selfTest := sv.selfTest } ∧ (s.mu.scan = none → ∀ x, mu.scan = some x → x.startedAt = s.now) := by
  by_cases idle : s.sv.selfTest = .idle
  · rw [State.startSelfTest_idle idle]
    cases scan : s.mu.scan with
    | none =>
      rw [State.requestScan_idle (by exact scan)]
      refine ⟨_, _, _, rfl, rfl, rfl, rfl, ?_⟩
      rintro - x started
      cases started
      rfl
    | some x =>
      rw [State.requestScan_merges (by exact scan)]
      exact ⟨_, s.guards, _, rfl, rfl, rfl, rfl, nofun⟩
  · refine ⟨s.mu, s.guards, s.sv, State.startSelfTest_of idle, rfl, rfl, rfl, fun none x some => ?_⟩
    rw [none] at some
    cases some

/-- What the end of step 3 leaves and brings, the profile line aside (R190). -/
structure State.Step3Ends (s t : State) : Prop where
  now : t.now = s.now
  sc : t.sc = { s.sc with learning := .ended, learnLimit := none }
  ev : t.ev = s.ev
  nt : t.nt = s.nt
  su : t.su = s.su
  lu : t.lu = s.lu
  fu : t.fu = s.fu
  observation : ∃ e, t.det = { s.det with observation := some e }
  mu : t.mu = { s.mu with scan := t.mu.scan, seq := t.mu.seq }
  fresh : s.mu.scan = none → ∀ x, t.mu.scan = some x → x.startedAt = s.now
  frames : s.FramesKept t
  guards : t.guards.restartWrite = s.guards.restartWrite
  sv : t.sv = { s.sv with selfTest := t.sv.selfTest }
  selfTest : s.sv.selfTest = .idle → t.sv.selfTest = .scanning ∧ (∃ x, t.mu.scan = some x ∧ x.awaitedSelfTest = true) ∧
    (s.mu.scan = none → t.guards.scan = some (s.now + 5000) ∧ t.mu.scan =
      some { seq := s.mu.seq + 1, startedAt := s.now, awaitedLearning := false, awaitedSelfTest := true }) ∧
    ∀ x, s.mu.scan = some x → t.mu.scan = some (x.merged .selfTest) ∧ t.mu.seq = s.mu.seq ∧ t.guards.scan = s.guards.scan

theorem State.step3Ended_ends (s : State) : s.Step3Ends s.step3Ended := by
  obtain ⟨d, e, u, u_eq, eq⟩ := s.step3Ended_eq
  have asked := State.requestObservation_frame u
  have offers := State.requestObservation_offers u
  obtain ⟨mu, guards, sv, test, scanGuard, muEq, svEq, fresh⟩ := State.startSelfTest_eq u.requestObservation
  have muU : u.requestObservation.mu = s.mu := by rw [asked.mu, u_eq]
  refine ⟨?_, ?_, ?_, ?_, ?_, ?_, ?_, ⟨e, ?_⟩, ?_, ?_, ?_, ?_, ?_, fun idle => ?_⟩ <;> rw [eq]
  · rw [test, asked.now, u_eq]
  · rw [test, asked.sc, u_eq]
  · rw [test, asked.ev, u_eq]
  · rw [test, asked.nt, u_eq]
  · rw [test, asked.su, u_eq]
  · rw [test, asked.lu, u_eq]
  · rw [test, offers.fu, u_eq]
  · rw [test, asked.det, u_eq]
  · rw [test]
    exact muEq.trans (by rw [muU])
  · rw [test]
    exact fun none x some => (fresh (by rw [muU]; exact none) x some).trans (by rw [asked.now, u_eq])
  · rw [test]
    refine State.FramesKept.trans (t := u.requestObservation) ?_ (.of_eq rfl)
    exact State.FramesKept.trans (t := u) (.of_eq (by rw [u_eq])) offers.frames
  · rw [test, scanGuard, offers.guards, u_eq]
  · rw [test]
    exact svEq.trans (by rw [asked.sv, u_eq])
  · have idle' : u.requestObservation.sv.selfTest = .idle := by rw [asked.sv, u_eq]; exact idle
    rw [State.startSelfTest_idle idle']
    obtain ⟨⟨x, scan, awaited⟩, -⟩ := State.requestScan_awaited
      { u.requestObservation with sv := { u.requestObservation.sv with selfTest := .scanning } }
    refine ⟨?_, ⟨x, scan, awaited⟩, fun none => ?_, fun y some => ?_⟩
    · obtain ⟨_, _, eq', -⟩ := State.requestScan_eq .selfTest
        { u.requestObservation with sv := { u.requestObservation.sv with selfTest := .scanning } }
      rw [eq']
    · have none' : u.requestObservation.mu.scan = Option.none := by rw [asked.mu, u_eq]; exact none
      rw [State.requestScan_idle (s := { u.requestObservation with
        sv := { u.requestObservation.sv with selfTest := .scanning } }) none']
      refine ⟨congrArg (fun n => some (n + 5000)) (asked.now.trans (by rw [u_eq])), ?_⟩
      change some (Scan.started (u.requestObservation.mu.seq + 1) u.requestObservation.now .selfTest) = _
      rw [asked.mu, asked.now, u_eq]
      rfl
    · have some' : u.requestObservation.mu.scan = Option.some y := by rw [asked.mu, u_eq]; exact some
      rw [State.requestScan_merges (s := { u.requestObservation with
        sv := { u.requestObservation.sv with selfTest := .scanning } }) some']
      exact ⟨rfl, by rw [asked.mu, u_eq], by rw [offers.guards, u_eq]⟩

/-! ## What step 3 counts and reports -/

theorem State.profileTold_counters (p : Profile) (s : State) : (s.profileTold p).counters = s.counters := by
  refine (State.profileRequest_offers p _).counters.trans ?_
  by_cases can : s.CanOriginate .routine
  · obtain ⟨t, made, eq⟩ := State.askProfile_of_can p can
    rw [eq]
    exact (State.originate_reports made rfl nofun).counters
  · rw [State.askProfile_of_cannot p can]

theorem State.takeProfile_faults (p : Profile) (s : State) : (s.takeProfile p).faults = s.faults := by
  unfold State.takeProfile
  rw [State.panelRecord_eq]
  exact (State.requestObservation_frame _).faults

theorem State.profileRequest_faults (p : Profile) (s : State) : (s.profileRequest p).faults = s.faults := by
  unfold State.profileRequest
  split
  · split
    · split
      · split <;> rfl
      · rfl
    · split
      · split <;> rfl
      · exact State.takeProfile_faults p s
  · rfl

theorem State.profileTold_faults (p : Profile) (s : State) : (s.profileTold p).faults = s.faults :=
  (State.profileRequest_faults p _).trans (State.askProfile_frame p s).faults

theorem State.step3Ended_counters (s : State) : s.step3Ended.counters = s.counters := by
  obtain ⟨d, e, u, u_eq, eq⟩ := s.step3Ended_eq
  obtain ⟨mu, guards, sv, test, -⟩ := State.startSelfTest_eq u.requestObservation
  rw [eq, test, (State.requestObservation_offers u).counters, u_eq]

theorem State.step3Ended_faults (s : State) : s.step3Ended.faults = s.faults := by
  obtain ⟨d, e, u, u_eq, eq⟩ := s.step3Ended_eq
  obtain ⟨mu, guards, sv, test, -⟩ := State.startSelfTest_eq u.requestObservation
  rw [eq, test, (State.requestObservation_frame u).faults, u_eq]

/-! ## The start of the alert list (R156, R190) -/

/-- The start of the alert list changes its timers, the radio and the scan alone (R190). -/
theorem State.startList_eq (s : State) : ∃ mu guards, s.startList = { s with
    su := { s.su with
      list := .alert
      position := 1
      nextBoundary := some (s.now + 500000)
      startWindow := if s.isDetector then some (s.now + 30000000) else none }
    ev := { s.ev with heatTick := if s.isDetector then some (s.now + 8000000) else none }
    sv := { s.sv with health := s.after (seconds (3600 * s.cfg.healthPeriod)) }
    radio := s.relisted .alert, mu := mu, guards := guards } ∧
    guards = { s.guards with scan := guards.scan } ∧
    (s.mu.scan = none → mu = { s.mu with seq := s.mu.seq + 1, scan := some (.started (s.mu.seq + 1) s.now .schedule) } ∧
      guards = { s.guards with scan := some (s.now + 5000) }) := by
  unfold State.startList
  dsimp only
  rw [State.listChanged_eq]
  cases scan : s.mu.scan with
  | none =>
    rw [State.requestScan_idle (by exact scan)]
    exact ⟨_, _, rfl, rfl, fun _ => ⟨rfl, rfl⟩⟩
  | some x =>
    rw [State.requestScan_merges (by exact scan)]
    exact ⟨_, s.guards, rfl, rfl, nofun⟩

/-! ## The reading of the profile line (R193) -/

theorem State.FaultFrame.with_refresh {s t : State} (h : s.FaultFrame t) (r : Option Us) :
    State.FaultFrame { s with fu := { s.fu with profileRefresh := r } } { t with fu := { t.fu with profileRefresh := r } } :=
  { h with refresh := rfl }

/-- The reading of the profile line leaves the blocks but the transmit path, the profile items and the refresh timer. -/
theorem State.readProfileLine_frame (s : State) : ∃ profile pending limit refresh, State.FaultFrame { s with
    det := { s.det with profile := profile, pendingProfile := pending, serviceLimit := limit }
    fu := { s.fu with profileRefresh := refresh } } s.readProfileLine := by
  by_cases service : s.isPanel = true ∧ s.lu.profileLine.level = true
  · obtain ⟨profile, pending, limit, writes⟩ := Detection.requested_writes s.cfg.serviceApplies s.now .service s.det
    have told := (State.profileTold_frame .service s).with_refresh (some (s.now + 1800000000))
    rw [writes] at told
    rw [State.readProfileLine_service service.1 service.2]
    exact ⟨profile, pending, limit, _, told⟩
  · rw [State.readProfileLine_of service]
    exact ⟨_, _, _, _, .refl s⟩

theorem State.readProfileLine_counters (s : State) : s.readProfileLine.counters = s.counters := by
  unfold State.readProfileLine
  split
  · exact State.profileTold_counters _ s
  · rfl

theorem State.readProfileLine_faults (s : State) : s.readProfileLine.faults = s.faults := by
  unfold State.readProfileLine
  split
  · exact State.profileTold_faults _ s
  · rfl

/-! ## Step 3 (R190) -/

/-- A MULTI station's step 3: learning begins, and awaits the list's first scan (R190). -/
theorem State.step3_multi {s : State} (multi : s.isMulti = true) : s.step3 = State.requestScan .learning { s.startList with
    sc := { s.sc with learning := .learning, learnLimit := some (s.now + 60000000) } } := by
  obtain ⟨mu, guards, eq, -⟩ := State.startList_eq s
  have multi' : s.startList.isMulti = true := by rw [eq]; exact multi
  rw [State.step3]
  dsimp only
  rw [if_pos multi', eq]
  rfl

/-- The other roles end step 3 in the event that begins it (R190). -/
theorem State.step3_other {s : State} (other : s.isMulti = false) :
    s.step3 = s.startList.step3Ended.readProfileLine := by
  obtain ⟨mu, guards, eq, -⟩ := State.startList_eq s
  have other' : s.startList.isMulti = false := by rw [eq]; exact other
  rw [State.step3]
  dsimp only
  rw [if_neg (by rw [other']; nofun), State.endStep3_eq]

/-- What every step 3 leaves of the counters, the fault list, the record and the write, and brings (R190). -/
theorem State.step3_keeps (s : State) : s.step3.counters = s.counters ∧ s.step3.faults = s.faults ∧
    s.step3.guards.restartWrite = s.guards.restartWrite ∧ s.step3.su.list = .alert ∧ s.step3.su.position = 1 ∧
    s.step3.su.nextBoundary = some (s.now + 500000) ∧ s.step3.sc.config = s.sc.config ∧ s.step3.sc.write = s.sc.write ∧
    s.step3.sc.learning = if s.isMulti then .learning else .ended := by
  obtain ⟨mu, guards, eq, scanGuard, -⟩ := State.startList_eq s
  have write : guards.restartWrite = s.guards.restartWrite := by rw [scanGuard]
  by_cases multi : s.isMulti = true
  · obtain ⟨mu', guards', eq', -⟩ := State.requestScan_eq .learning { s.startList with
      sc := { s.sc with learning := .learning, learnLimit := some (s.now + 60000000) } }
    have write' := State.requestScan_restartWrite .learning { s.startList with
      sc := { s.sc with learning := .learning, learnLimit := some (s.now + 60000000) } }
    rw [State.step3_multi multi, if_pos multi]
    refine ⟨?_, ?_, ?_, ?_⟩
    · rw [eq', eq]
    · rw [eq', eq]
    · rw [write', eq]
      exact write
    · rw [eq', eq]
      exact ⟨rfl, rfl, rfl, rfl, rfl, rfl⟩
  · obtain ⟨profile, pending, limit, refresh, frame⟩ := State.readProfileLine_frame s.startList.step3Ended
    have ends := State.step3Ended_ends s.startList
    have su : s.startList.step3Ended.readProfileLine.su = s.startList.su := frame.su.trans ends.su
    have sc : s.startList.step3Ended.readProfileLine.sc =
      { s.startList.sc with learning := .ended, learnLimit := none } := frame.sc.trans ends.sc
    have guards' : s.startList.step3Ended.readProfileLine.guards.restartWrite = s.startList.guards.restartWrite :=
      (congrArg Guards.restartWrite frame.guards).trans ends.guards
    rw [State.step3_other (Bool.eq_false_iff.2 multi), if_neg multi, State.readProfileLine_counters,
      State.readProfileLine_faults, State.step3Ended_counters, State.step3Ended_faults, su, sc, guards', eq]
    exact ⟨rfl, rfl, write, rfl, rfl, rfl, rfl, rfl, rfl⟩

/-! ## O9, O10 and the learning limit of O11 -/

theorem exec_restartCountWriteEnd {dt : Us} {w : List Byte} {s : State} (write : s.sc.write = some w) :
    exec (.restartCountWriteEnd dt) s = .next (State.finish s (State.step3 { s with
      now := s.now + dt, sc := { s.sc with write := none, written := some w }
      guards := { s.guards with restartWrite := none } })) := by
  change execRestartCountWriteEnd dt s = _
  refine State.event_eq ?_
  have pending : (s.elapse dt).sc.write = some w := write
  rw [if_pos (by rw [pending]; rfl), State.writeEnded, pending]
  rfl

/-- Settles O10: the count, the raise (`State.raise_faultActive`) and step 3 (`State.step3_keeps`). -/
theorem writeGuardRaisesConfigWrite : Obligations.WriteGuardRaisesConfigWrite := by
  intro dt e w c s write config timer due settled storable
  have run := exec_settled (exec_guardExpiry_due (g := .restartWrite) timer due) settled
  generalize x_eq : ({ s with
    now := s.now + dt, guards := s.guards.put .restartWrite none
    sc := { s.sc with write := none, written := none } } : State) = x
  have run' : exec (.restartCountWriteGuardExpiry dt) s =
      .next (State.finish s ((x.count .guardExpired).raise .configWrite c.address).step3) := by
    refine run.trans ?_
    rw [← x_eq]
    change Host.Outcome.next (State.finish s (State.step3 (State.raise .configWrite (s.sc.config.getD ConfigRecord.blank).address _))) = _
    rw [config]
    rfl
  have raised := State.raise_faultActive (c := .configWrite) (a := c.address) (s := x.count .guardExpired)
    (by rw [← x_eq]; exact storable)
  have reports := State.raise_reports .configWrite c.address (x.count .guardExpired)
  have frame := State.raise_frame .configWrite c.address (x.count .guardExpired)
  generalize (x.count .guardExpired).raise .configWrite c.address = y at run' raised reports frame
  obtain ⟨counters, faults, guard, list, position, boundary, record, writes, learning⟩ := State.step3_keeps y
  have record' : y.sc.config = some c := by rw [frame.sc, ← x_eq]; exact config
  refine ⟨_, run', ?_, ?_, ?_, ?_, ?_, ?_, ?_, ?_, fun multi => ?_, fun other => ?_⟩
  · rw [State.counter, State.finish_counters, counters, reports.counters]
    exact (State.counter_count _ _ _).trans (by rw [if_pos rfl, ← x_eq]; rfl)
  · rw [State.FaultActive, State.finish_faults, faults]
    exact raised
  · rw [State.finish_sc, writes, frame.sc, ← x_eq]
    rfl
  · rw [State.finish_guards, guard, reports.guards, ← x_eq]
    rfl
  · rw [State.finish_su_list, list]
  · rw [State.finish_su_position, position]
  · rw [State.finish_su_nextBoundary, boundary, frame.now, ← x_eq]
    rfl
  · rw [State.finish_sc, record, record']
  · rw [State.finish_sc, learning, if_pos (by simp [State.isMulti, record', multi])]
  · rw [State.finish_sc, learning, if_neg (by simp [State.isMulti, record', other])]

theorem State.healthStart (s : State) : s.after (seconds (3600 * s.cfg.healthPeriod)) =
    some (s.now + s.cfg.healthPeriod * 3600000000) := by
  rw [State.after, seconds, Nat.mul_comm 3600, Nat.mul_assoc]

/-- The start of the alert list with no scan in flight (R190). -/
theorem State.startList_idle {s : State} (idle : s.mu.scan = none) : s.startList = { s with
    su := { s.su with
      list := .alert
      position := 1
      nextBoundary := some (s.now + 500000)
      startWindow := if s.isDetector then some (s.now + 30000000) else none }
    ev := { s.ev with heatTick := if s.isDetector then some (s.now + 8000000) else none }
    sv := { s.sv with health := some (s.now + s.cfg.healthPeriod * 3600000000) }
    radio := s.relisted .alert
    mu := { s.mu with seq := s.mu.seq + 1, scan := some (.started (s.mu.seq + 1) s.now .schedule) }
    guards := { s.guards with scan := some (s.now + 5000) } } := by
  obtain ⟨mu, guards, eq, -, scans⟩ := State.startList_eq s
  obtain ⟨rfl, rfl⟩ := scans idle
  rw [eq, State.healthStart]

/-- A MULTI station's step 3 with the radio free and no scan in flight (R190). -/
theorem State.step3_multi_idle {s : State} {c : ConfigRecord} (config : s.sc.config = some c) (role : c.role = .multi)
    (idle : s.mu.scan = none) (free : s.radio.owner = .none) : s.step3 = { s with
      sc := { s.sc with learning := .learning, learnLimit := some (s.now + 60000000) }
      su := { s.su with
        list := .alert
        position := 1
        nextBoundary := some (s.now + 500000)
        startWindow := some (s.now + 30000000) }
      ev := { s.ev with heatTick := some (s.now + 8000000) }
      sv := { s.sv with health := some (s.now + s.cfg.healthPeriod * 3600000000) }
      radio := { s.radio with rx := .listening }
      mu := { s.mu with
        seq := s.mu.seq + 1
        scan := some { seq := s.mu.seq + 1, startedAt := s.now, awaitedLearning := true, awaitedSelfTest := false } }
      guards := { s.guards with scan := some (s.now + 5000) } } := by
  have multi : s.isMulti = true := by simp [State.isMulti, config, role]
  have detector : s.isDetector = true := by simp [State.isDetector, config, role]
  rw [State.step3_multi multi, State.startList_idle idle, State.requestScan_merges rfl, if_pos detector, if_pos detector,
    State.relisted, if_pos free]
  rfl

/-- What step 3 leaves and brings on a role without learning, from an idle self-test and no scan in flight (R190, R193). -/
theorem State.step3_other_idle {s : State} {c : ConfigRecord} (config : s.sc.config = some c) (other : c.role ≠ .multi)
    (idle : s.mu.scan = none) (test : s.sv.selfTest = .idle) : ∃ v, s.step3 = v.readProfileLine ∧
      s.startList.Step3Ends v ∧ v.sv.selfTest = .scanning ∧ v.guards.scan = some (s.now + 5000) ∧ v.mu.scan =
        some { seq := s.mu.seq + 1, startedAt := s.now, awaitedLearning := false, awaitedSelfTest := true } := by
  have role : s.isMulti = false := by simp [State.isMulti, config, other]
  have ends := State.step3Ended_ends s.startList
  have list := State.startList_idle idle
  obtain ⟨scanning, -, -, merges⟩ := ends.selfTest (by rw [list]; exact test)
  obtain ⟨scan, -, guards⟩ := merges (.started (s.mu.seq + 1) s.now .schedule) (by rw [list])
  exact ⟨_, State.step3_other role, ends, scanning, guards.trans (by rw [list]), scan⟩

/-- Settles O9: a MULTI station's step 3 written out (`State.step3_multi_idle`); on the other roles the end of step 3
(`State.step3_other_idle`) and the reading of the profile line. -/
theorem restartCountWriteEnd : Obligations.RestartCountWriteEnd := by
  refine ⟨?_, ?_⟩
  · intro dt w c s write config role free idle
    have run := exec_restartCountWriteEnd (dt := dt) write
    generalize x_eq : ({ s with
      now := s.now + dt, sc := { s.sc with write := none, written := some w }
      guards := { s.guards with restartWrite := none } } : State) = x at run
    have config' : x.sc.config = some c := by rw [← x_eq]; exact config
    have cfg : x.cfg = c := by rw [State.cfg, config']; rfl
    rw [run, State.step3_multi_idle config' role (by rw [← x_eq]; exact idle) (by rw [← x_eq]; exact free), cfg, ← x_eq]
  · intro dt w c s write config other idle test service
    have run := exec_restartCountWriteEnd (dt := dt) write
    generalize x_eq : ({ s with
      now := s.now + dt, sc := { s.sc with write := none, written := some w }
      guards := { s.guards with restartWrite := none } } : State) = x at run
    have config' : x.sc.config = some c := by rw [← x_eq]; exact config
    have cfg : x.cfg = c := by rw [State.cfg, config']; rfl
    have idle' : x.mu.scan = none := by rw [← x_eq]; exact idle
    have heat : x.isDetector = decide (c.role = .heat) := by simp [State.isDetector, config', other]
    obtain ⟨v, step, ends, scanning, guard, scan⟩ := State.step3_other_idle config' other idle' (by rw [← x_eq]; exact test)
    obtain ⟨profile, pending, limit, refresh, frame⟩ := State.readProfileLine_frame v
    obtain ⟨e, det⟩ := ends.observation
    have cfg' : v.cfg = c := by rw [State.cfg, ends.sc, State.startList_idle idle', config']; rfl
    have now : v.now = s.now + dt := by rw [ends.now, State.startList_idle idle', ← x_eq]
    have fu : v.fu = s.fu := by rw [ends.fu, State.startList_idle idle', ← x_eq]
    have det' : v.det = { s.det with observation := some e } := by rw [det, State.startList_idle idle', ← x_eq]
    rw [step] at run
    refine ⟨_, run, ?_⟩
    simp only [State.finish_su_list, State.finish_su_position, State.finish_su_nextBoundary, State.finish_su_startWindow,
      State.finish_ev, State.finish_sv, State.finish_sc, State.finish_det, State.finish_mu, State.finish_guards,
      State.finish_nt, State.finish_fu, State.finish_buf]
    rw [frame.su, frame.ev, frame.sv, frame.sc, frame.mu, frame.guards, frame.nt, frame.fires]
    have list := State.startList_idle idle'
    refine ⟨?_, ?_, ?_, ?_, ?_, ?_, ?_, ?_, ?_, ?_, scanning, ?_, ?_, ?_, ?_, ?_, fun yes => ?_, fun no => ?_⟩
    · rw [ends.su, list]
    · rw [ends.su, list]
    · rw [ends.su, list, ← x_eq]
    · rw [ends.su, list, heat, ← x_eq]
      simp only [decide_eq_true_eq]
    · rw [ends.ev, list, heat, ← x_eq]
      simp only [decide_eq_true_eq]
    · rw [ends.sv, list, cfg, ← x_eq]
    · rw [ends.sc]
    · rw [ends.sc]
    · rw [ends.sc, list, ← x_eq]
    · rw [frame.det, det']
      nofun
    · rw [scan, ← x_eq]
    · rw [guard, ← x_eq]
    · rw [ends.guards, list, ← x_eq]
    · rw [ends.nt, list, ← x_eq]
    · change v.fu.fires = s.fu.fires
      rw [fu]
    · have panel : v.isPanel = true := by simp [State.isPanel, ends.sc, list, config', yes.1]
      have level : v.lu.profileLine.level = true := by rw [ends.lu, list, ← x_eq]; exact yes.2
      have det'' := (State.profileTold_frame .service v).det
      obtain ⟨unserved, served, -⟩ := Detection.requested_service v.now v.cfg.serviceApplies v.det
      rw [State.readProfileLine_service panel level, State.profileChange_eq, if_pos rfl]
      refine ⟨by rw [now], ?_, fun applies quiet => ?_, fun applies => ?_⟩
      · by_cases can : v.CanOriginate .routine
        · obtain ⟨taken, b, -, -, made⟩ := State.profileTold_can (p := .service) can
          refine .inr ⟨?_, b, made.trans (by rw [cfg', fu]; rfl)⟩
          change (v.profileTold .service).fu.seqCounter = _
          rw [taken, fu]
        · refine .inl ⟨?_, ?_⟩
          · change (v.profileTold .service).fu.pendingProfile = _
            rw [State.profileTold_cannot can]
          · change (v.profileTold .service).fu.seqCounter = _
            rw [State.profileTold_cannot can, fu]
      · rw [served (by rw [cfg']; exact applies) (by rw [det']; exact quiet)] at det''
        exact ⟨congrArg Detection.profile det'', (congrArg Detection.serviceLimit det'').trans (by rw [now])⟩
      · rw [unserved (by rw [cfg']; exact applies), det'] at det''
        exact ⟨(congrArg Detection.profile det'' :), (congrArg Detection.serviceLimit det'' :)⟩
    · have unread : ¬ (v.isPanel = true ∧ v.lu.profileLine.level = true) := by
        rw [State.isPanel, ends.sc, ends.lu, list, ← x_eq]
        rw [show s.sc.config = some c from config]
        exact fun ⟨panel, level⟩ => no ⟨by simpa using panel, level⟩
      rw [State.readProfileLine_of unread, fu, det']
      exact ⟨rfl, rfl, rfl, rfl, rfl⟩

end Sys2Proof.Machine
end

section
/-! SUPPORT. The end of a scan (1.5): the evaluation, the recipients of the latched set, and the learning sequence. -/
namespace Sys2Proof.Machine

/-! ## The transitions of an evaluation (R40 to R47) -/

/-- The transitions change the detection record's counts alone, or change the state by one of the operations of R47. -/
theorem State.transitions_cases (theta : Option Int) (s : State) :
    (∃ d, d.state = s.det.state ∧ s.transitions theta = { s with det := d }) ∨
    (s.det.state ≠ .fire ∧ ∃ st, st ≠ .fire ∧ s.transitions theta = s.changeState st) ∨
    (s.det.state ≠ .fire ∧ ∃ c, s.transitions theta = s.enterFireState c) := by
  by_cases fire : s.det.state = .fire
  · exact .inl ⟨s.det, rfl, State.transitions_of_fire theta fire⟩
  by_cases change : (s.transitions theta).det.state = s.det.state
  · refine .inl ?_
    unfold State.transitions at change ⊢
    split at change
    · exact absurd (change.symm.trans (State.enterFireState_state _ s)) fire
    · rename_i cool
      rw [if_neg cool]
      cases state : s.det.state with
      | fire => exact absurd state fire
      | quiet =>
        simp only [state] at change ⊢
        split at change
        · exact absurd change (by rw [State.changeState_state]; nofun)
        · rename_i low
          exact ⟨s.det, state, if_neg low⟩
      | watch =>
        simp only [state] at change ⊢
        unfold State.watchRule at change ⊢
        dsimp only at change ⊢
        split at change
        · exact absurd change (by rw [State.changeState_state]; nofun)
        · rename_i low
          split at change
          · exact absurd change (by rw [State.changeState_state]; nofun)
          · rename_i few
            exact ⟨{ s.det with hyst := hystAfter s.det.hyst s.ev.e s.levels.watch }, state, by rw [if_neg low, if_neg few]⟩
      | verify =>
        simp only [state] at change ⊢
        unfold State.verifyRule at change ⊢
        dsimp only at change ⊢
        split at change
        · exact absurd change (by rw [State.enterFireState_state]; nofun)
        · rename_i calm
          split at change
          · exact absurd change (by rw [State.changeState_state]; nofun)
          · rename_i few
            exact ⟨s.verifyCounts.det, state, by rw [if_neg calm, if_neg few]; rfl⟩
  · obtain h | h := State.transitions_change change
    · exact .inr (.inl ⟨fire, h⟩)
    · exact .inr (.inr ⟨fire, h⟩)

/-- Another fire origin list beside a frame. -/
theorem State.FaultFrame.with_fires {s t : State} (h : s.FaultFrame t) (l : List FireOrigin) (o : Bool) :
    State.FaultFrame { s with fu := { s.fu with fires := l, overflow := o } }
      { t with fu := { t.fu with fires := l, overflow := o } } := { h with fires := rfl, overflow := rfl }

/-- Beside the detection record and the fire origin list, the frame of a fault request. -/
def State.JudgeFrame (s t : State) : Prop :=
  State.FaultFrame { s with det := t.det, fu := { s.fu with fires := t.fu.fires, overflow := t.fu.overflow } } t

theorem State.FaultFrame.judge {s t : State} {d : Detection} (h : State.FaultFrame { s with det := d } t) : s.JudgeFrame t := by
  have same : ({ s with det := t.det, fu := { s.fu with fires := t.fu.fires, overflow := t.fu.overflow } } : State) =
      { s with det := d } := by
    rw [h.det, h.fires, h.overflow]
  rw [State.JudgeFrame, same]
  exact h

theorem State.JudgeFrame.refl (s : State) : s.JudgeFrame s := State.FaultFrame.refl s

theorem State.JudgeFrame.trans {s t u : State} (h : s.JudgeFrame t) (k : t.JudgeFrame u) : s.JudgeFrame u :=
  State.FaultFrame.trans ((h.with_det u.det).with_fires u.fu.fires u.fu.overflow) k

theorem State.enterFire_judge (o : Addr) (z c : Byte) (s : State) : s.JudgeFrame (s.enterFire o z c) := by
  unfold State.enterFire
  dsimp only
  split
  · exact .refl s
  · split
    · have recorded := State.panelRecord_frame .fireAdded o z c 0 { s with fu := { s.fu with
        fires := s.fu.fires ++ [{ origin := o, zone := z, cause := c, silenced := false }] } }
      rw [State.JudgeFrame, recorded.det, recorded.fires, recorded.overflow]
      exact recorded
    · exact State.FaultFrame.refl _

theorem State.enterState_judge (st : DetState) (s : State) : s.JudgeFrame (s.enterState st) :=
  (State.enterState_frame st s).judge

theorem State.announceState_judge (s : State) : s.JudgeFrame s.announceState := (State.announceState_frame s).fault.judge

theorem State.declare_judge (c : FireCause) (s : State) : s.JudgeFrame (s.declare c) :=
  State.JudgeFrame.trans (State.JudgeFrame.trans (State.FaultFrame.judge (.refl { s with det := { s.det with
    cause := some c, evidence := some s.ev.e, refresh := s.after (seconds 30) } })) (State.enterFire_judge _ _ _ _))
    (State.FaultFrame.judge (d := (State.enterFire s.cfg.address s.cfg.zone c.code { s with det := { s.det with
    cause := some c, evidence := some s.ev.e, refresh := s.after (seconds 30) } }).det) (State.askFire_frame c s.ev.e _).fault)

theorem State.transitions_judge (theta : Option Int) (s : State) : s.JudgeFrame (s.transitions theta) := by
  obtain ⟨d, -, eq⟩ | ⟨-, st, -, eq⟩ | ⟨-, c, eq⟩ := State.transitions_cases theta s
  · rw [eq]
    exact State.FaultFrame.judge (.refl { s with det := d })
  · rw [eq, State.changeState_eq]
    exact (State.enterState_judge st s).trans (State.announceState_judge _)
  · rw [eq, State.enterFireState_eq]
    exact ((State.enterState_judge _ s).trans (State.declare_judge c _)).trans (State.announceState_judge _)

/-! ## The evaluation (R17) -/

/-- The state in which the transitions of an evaluation are judged (R17). -/
def State.figured (set : SampleSet) (s : State) : State := { s with ev := s.ev.figures s.cfg set }

/-- The evaluation up to its baselines (R17). -/
def State.baselined (set : SampleSet) (s : State) : State :=
  { (s.figured set).transitions set.computedTheta with ev := ((s.ev.figures s.cfg set).baselineStep s.det.state set.smoke).2 }

theorem State.evaluate_eq (set : SampleSet) (s : State) : s.evaluate set = if
    ((s.ev.figures s.cfg set).baselineStep s.det.state set.smoke).1 then (s.baselined set).raiseOwn .chamber
    else s.baselined set := by
  have ev : ((s.figured set).transitions set.computedTheta).ev = s.ev.figures s.cfg set :=
    (State.transitions_judge _ (s.figured set)).ev
  rw [State.baselined, ← ev]
  rfl

theorem State.FaultFrame.with_ev {s t : State} (h : s.FaultFrame t) (v : Evidence) :
    State.FaultFrame { s with ev := v } { t with ev := v } := { h with ev := rfl }

theorem State.baselined_judge (set : SampleSet) (s : State) : State.JudgeFrame { s with
    ev := ((s.ev.figures s.cfg set).baselineStep s.det.state set.smoke).2 } (s.baselined set) :=
  State.FaultFrame.with_ev (State.transitions_judge set.computedTheta (s.figured set)) _

theorem State.evaluate_frame (set : SampleSet) (s : State) : (s.baselined set).FaultFrame (s.evaluate set) := by
  rw [State.evaluate_eq]
  split
  · exact State.raiseOwn_frame _ _
  · exact .refl _

theorem State.evaluate_judge (set : SampleSet) (s : State) : State.JudgeFrame { s with
    ev := ((s.ev.figures s.cfg set).baselineStep s.det.state set.smoke).2 } (s.evaluate set) :=
  (State.baselined_judge set s).trans (State.FaultFrame.judge (d := (s.baselined set).det) (State.evaluate_frame set s))

/-! ## The battery watch, the completed-scan count and the validity runs (R11, R15, R178) -/

/-- The battery watch's counts after a set (R178). -/
def Sv.watched (lowBattery v : Nat) (w : Sv) : Sv := { w with
  below := if v < lowBattery then min 3 (w.below + 1) else 0
  above := if lowBattery + 25 < v then min 3 (w.above + 1) else 0 }

/-- What the battery watch asks for (R178). -/
def Sv.watchAsks (lowBattery v : Nat) (w : Sv) : RunRequest :=
  if v < lowBattery ∧ w.below = 2 then .raise else if lowBattery + 25 < v ∧ w.above = 2 then .clear else .nothing

theorem State.batteryWatch_eq (v : Nat) (s : State) : s.batteryWatch v = State.askRun (s.sv.watchAsks s.cfg.lowBattery v)
    .lowBattery { s with sv := s.sv.watched s.cfg.lowBattery v } := by
  unfold State.batteryWatch Sv.watchAsks Sv.watched
  by_cases low : v < s.cfg.lowBattery
  · have notHigh : ¬ s.cfg.lowBattery + 25 < v := by omega
    by_cases third : s.sv.below = 2
    · simp only [low, third, notHigh, and_self, if_true, if_false, State.askRun]
    · simp only [low, third, notHigh, and_false, false_and, if_true, if_false, State.askRun]
  · by_cases high : s.cfg.lowBattery + 25 < v
    · have past : ¬ v ≤ s.cfg.lowBattery + 25 := by omega
      by_cases third : s.sv.above = 2
      · simp only [low, third, high, past, and_self, false_and, if_true, if_false, State.askRun]
      · simp only [low, third, high, past, and_false, false_and, if_true, if_false, State.askRun]
    · have mid : v ≤ s.cfg.lowBattery + 25 := by omega
      simp only [low, high, mid, false_and, if_true, if_false, State.askRun]

theorem State.scanCounted_eq (s : State) : s.scanCounted = State.askRun (if s.sv.completedScans = 2 then .clear else .nothing)
    .scanStall { s with sv := { s.sv with completedScans := min 3 (s.sv.completedScans + 1) } } := by
  unfold State.scanCounted
  split <;> rfl

theorem State.askRun_reports (q : RunRequest) (c : FaultCode) (s : State) : s.Reports (s.askRun q c) := by
  cases q with
  | nothing => exact .refl s
  | raise => exact State.raiseOwn_reports c s
  | clear => exact State.clearOwn_reports c s

/-- The validity runs after a set (R11). -/
def Mu.ran (set : SampleSet) (m : Mu) : Mu := { m with
  smokeRun := set.smoke.elim m.smokeRun (fun p => (m.smokeRun.take p.status).2)
  heatRun := set.heat.elim m.heatRun (fun p => (m.heatRun.take p.status).2) }

/-- What the validity runs ask for (R11). -/
def Mu.smokeAsks (set : SampleSet) (m : Mu) : RunRequest := set.smoke.elim .nothing (fun p => (m.smokeRun.take p.status).1)

def Mu.heatAsks (set : SampleSet) (m : Mu) : RunRequest := set.heat.elim .nothing (fun p => (m.heatRun.take p.status).1)

theorem State.smokeRunTakes_eq (set : SampleSet) (s : State) : s.smokeRunTakes set = State.askRun (s.mu.smokeAsks set)
    .chamber { s with mu := { s.mu with
      smokeRun := set.smoke.elim s.mu.smokeRun (fun p => (s.mu.smokeRun.take p.status).2) } } := by
  unfold State.smokeRunTakes Mu.smokeAsks
  cases set.smoke <;> rfl

theorem State.heatRunTakes_eq (set : SampleSet) (s : State) : s.heatRunTakes set = State.askRun (s.mu.heatAsks set)
    .heatSensor { s with mu := { s.mu with
      heatRun := set.heat.elim s.mu.heatRun (fun p => (s.mu.heatRun.take p.status).2) } } := by
  unfold State.heatRunTakes Mu.heatAsks
  cases set.heat <;> rfl

/-- The recipients that count a set, one after another (R7, log 7). -/
def State.counted (set : SampleSet) (s : State) : State :=
  (((s.batteryWatch set.v.toNat).scanCounted.smokeRunTakes set).heatRunTakes set)

/-- The supervision unit's counts after a set (R15, R178). -/
def State.counts (set : SampleSet) (s : State) : Sv :=
  { s.sv.watched s.cfg.lowBattery set.v.toNat with completedScans := min 3 (s.sv.completedScans + 1) }

theorem State.FaultFrame.with_counts {s t : State} (h : s.FaultFrame t) (w : Sv) (m : Mu) :
    State.FaultFrame { s with sv := w, mu := m } { t with sv := w, mu := m } := { h with sv := rfl, mu := rfl }

theorem State.JudgeFrame.with_counts {s t : State} (h : s.JudgeFrame t) (w : Sv) (m : Mu) :
    State.JudgeFrame { s with sv := w, mu := m } { t with sv := w, mu := m } := State.FaultFrame.with_counts h w m

theorem State.counted_frame (set : SampleSet) (s : State) :
    State.FaultFrame { s with sv := s.counts set, mu := s.mu.ran set } (s.counted set) := by
  rw [State.counted, State.batteryWatch_eq, State.scanCounted_eq, State.smokeRunTakes_eq, State.heatRunTakes_eq]
  have battery := State.askRun_frame (s.sv.watchAsks s.cfg.lowBattery set.v.toNat) .lowBattery
    { s with sv := s.sv.watched s.cfg.lowBattery set.v.toNat }
  generalize State.askRun _ .lowBattery _ = w at battery ⊢
  have scans := State.askRun_frame (if w.sv.completedScans = 2 then .clear else .nothing) .scanStall
    { w with sv := { w.sv with completedScans := min 3 (w.sv.completedScans + 1) } }
  generalize State.askRun _ .scanStall _ = x at scans ⊢
  have smoke := State.askRun_frame (x.mu.smokeAsks set) .chamber { x with mu := { x.mu with
    smokeRun := set.smoke.elim x.mu.smokeRun (fun p => (x.mu.smokeRun.take p.status).2) } }
  generalize State.askRun _ .chamber _ = y at smoke ⊢
  have heat := State.askRun_frame (y.mu.heatAsks set) .heatSensor { y with mu := { y.mu with
    heatRun := set.heat.elim y.mu.heatRun (fun p => (y.mu.heatRun.take p.status).2) } }
  generalize State.askRun _ .heatSensor _ = z at heat ⊢
  have mu : x.mu = s.mu := scans.mu.trans battery.mu
  have sv : y.sv = s.counts set := smoke.sv.trans (scans.sv.trans (congrArg
    (fun v : Sv => { v with completedScans := min 3 (v.completedScans + 1) }) battery.sv))
  have ran : y.mu = { s.mu with smokeRun := set.smoke.elim s.mu.smokeRun (fun p => (s.mu.smokeRun.take p.status).2) } :=
    smoke.mu.trans (by rw [mu])
  have whole : ({ y with mu := { y.mu with
      heatRun := set.heat.elim y.mu.heatRun (fun p => (y.mu.heatRun.take p.status).2) } } : State) =
      { y with sv := s.counts set, mu := s.mu.ran set } := by
    rw [ran, ← sv]
    rfl
  rw [whole] at heat
  exact (((battery.with_counts (s.counts set) (s.mu.ran set)).trans (scans.with_counts _ _)).trans
    (smoke.with_counts _ _)).trans heat

/-- Counts apart, a step of the recipients reports. -/
theorem State.counts_reports (w : Sv) (m : Mu) (s : State) : s.Reports { s with sv := w, mu := m } :=
  .of_eq rfl rfl rfl rfl rfl rfl

theorem State.counted_reports (set : SampleSet) (s : State) : s.Reports (s.counted set) := by
  rw [State.counted, State.batteryWatch_eq, State.scanCounted_eq, State.smokeRunTakes_eq, State.heatRunTakes_eq]
  exact (((((((State.counts_reports _ _ s).trans (State.askRun_reports _ _ _)).trans (State.counts_reports _ _ _)).trans
    (State.askRun_reports _ _ _)).trans (State.counts_reports _ _ _)).trans (State.askRun_reports _ _ _)).trans
    (State.counts_reports _ _ _)).trans (State.askRun_reports _ _ _)

/-! ## The hand-on of a set (R7) -/

/-- The state in which the set is latched, evaluated and counted (R7). -/
def State.noted (set : SampleSet) (s : State) : State := State.counted set (if s.isDetector then s.evaluate set else s)

theorem State.handOn_eq (x : Scan) (set : SampleSet) (s : State) : s.handOn x set =
    let noted := if x.awaitedLearning then (s.noted set).learningNotice set else s.noted set
    if x.awaitedSelfTest then noted.selfTestNotice (some set) else noted := rfl

/-- The evidence after a set (R17). -/
def State.evidenceAfter (set : SampleSet) (s : State) : Evidence :=
  if s.isDetector then ((s.ev.figures s.cfg set).baselineStep s.det.state set.smoke).2 else s.ev

theorem State.noted_frame (set : SampleSet) (s : State) : State.JudgeFrame { s with
    ev := s.evidenceAfter set, sv := s.counts set, mu := s.mu.ran set } (s.noted set) := by
  unfold State.noted State.evidenceAfter
  by_cases detector : s.isDetector = true
  · rw [if_pos detector, if_pos detector]
    have judged := State.evaluate_judge set s
    have counted := State.counted_frame set (s.evaluate set)
    have counts : State.counts set (s.evaluate set) = s.counts set := by
      rw [State.counts, State.counts, judged.sv, State.cfg, judged.sc, State.cfg]
    rw [counts, show (s.evaluate set).mu = s.mu from judged.mu] at counted
    exact (judged.with_counts (s.counts set) (s.mu.ran set)).trans (State.FaultFrame.judge
      (s := { s.evaluate set with sv := s.counts set, mu := s.mu.ran set }) (d := (s.evaluate set).det) counted)
  · rw [if_neg detector, if_neg detector]
    exact (State.counted_frame set s).judge (d := s.det)

theorem exec_scanCompletion_taken {dt : Us} {x : Scan} {d i b t v : Code} {s : State} (scan : s.mu.scan = some x) :
    exec (.scanCompletion dt x.seq d i b t v) s = .next (State.finish s (State.handOn x (sampleSet s.cfg.role x.seq d i b t v)
      { s with
        now := s.now + dt
        mu := { s.mu with scan := none, latched := some (sampleSet s.cfg.role x.seq d i b t v) }
        guards := { s.guards with scan := none } })) := by
  change execScanCompletion dt x.seq d i b t v s = _
  refine State.event_eq ?_
  simp only [State.elapse_mu, scan, if_true]
  rfl

/-! ## The learning sequence (R190) -/

theorem State.learningNotice_other {set : SampleSet} {s : State}
    (h : ¬ (s.sc.learning = .learning ∧ ∃ p, set.smoke = some p ∧ p.status = .valid)) : s.learningNotice set = s := by
  refine if_neg fun ⟨learning, good⟩ => h ⟨learning, ?_⟩
  cases smoke : set.smoke with
  | none =>
    rw [smoke] at good
    cases good
  | some p =>
    rw [smoke] at good
    exact ⟨p, rfl, of_decide_eq_true good⟩

theorem State.learningNotice_valid {set : SampleSet} {s : State} {p : SmokePart} (learning : s.sc.learning = .learning)
    (smoke : set.smoke = some p) (valid : p.status = .valid) : s.learningNotice set =
      if s.sc.learnCount < 7 then { s with sc := { s.sc with learnCount := s.sc.learnCount + 1 } }
      else State.endStep3 { s with sc := { s.sc with learnCount := 8 } } := by
  rw [State.learningNotice, if_pos ⟨learning, by rw [smoke]; exact decide_eq_true valid⟩]
  dsimp only
  by_cases early : s.sc.learnCount < 7
  · rw [if_pos early, if_neg (by omega), Nat.min_eq_right (by omega)]
  · rw [if_neg early, if_pos (by omega), Nat.min_eq_left (by omega)]

/-! ## O11 -/

/-- Settles O11: the limit's expiry and the eighth VALID set are the end of step 3 (`State.step3Ended_ends`). -/
theorem learningLimitEndsStepThree : Obligations.LearningLimitEndsStepThree := by
  refine ⟨?_, ?_⟩
  · intro dt e s limit due idle
    have run : exec (.learningLimitExpiry dt) s = .next (State.finish s (s.elapse dt).endStep3) := by
      change execLearningLimitExpiry dt s = _
      refine State.event_eq (if_pos ?_)
      rw [show (s.elapse dt).sc.learnLimit = some e from limit]
      exact State.due_of due
    obtain ⟨profile, pending, limit', refresh, frame⟩ := State.readProfileLine_frame (s.elapse dt).step3Ended
    have ends := State.step3Ended_ends (s.elapse dt)
    obtain ⟨scanning, scan, -⟩ := ends.selfTest idle
    obtain ⟨o, det⟩ := ends.observation
    rw [State.endStep3_eq] at run
    refine ⟨_, run, ?_⟩
    have su : (s.elapse dt).step3Ended.readProfileLine.su = s.su := frame.su.trans ends.su
    rw [State.finish_sc, State.finish_sv, State.finish_mu, State.finish_det, State.finish_ev, State.finish_nt,
      State.finish_fu, frame.sc, frame.sv, frame.mu, frame.det, frame.ev, frame.nt, frame.fires]
    refine ⟨ends.sc, scanning, scan, ?_, ends.ev, ends.nt, (congrArg Fu.fires ends.fu :), ?_⟩
    · rw [det]
      nofun
    · rw [State.finish_eq, su]
  · intro dt x d i b t v c s scan config role learns test learning
    refine ⟨_, exec_scanCompletion_taken scan, ?_⟩
    have cfg : s.cfg = c := by rw [State.cfg, config]; rfl
    rw [cfg, State.handOn_eq]
    generalize set_eq : sampleSet c.role x.seq d i b t v = set
    generalize y_eq : ({ s with
      now := s.now + dt, mu := { s.mu with scan := none, latched := some set }
      guards := { s.guards with scan := none } } : State) = y
    dsimp only
    rw [learns, test, if_pos rfl, if_neg (by nofun)]
    have frame := State.noted_frame set y
    have nt : (y.noted set).nt = s.nt := frame.nt.trans (by rw [← y_eq])
    have sc : (y.noted set).sc = s.sc := frame.sc.trans (by rw [← y_eq])
    have now : (y.noted set).now = s.now + dt := frame.now.trans (by rw [← y_eq])
    have none : (y.noted set).mu.scan = none := (congrArg Mu.scan frame.mu).trans (by rw [← y_eq]; rfl)
    have seq : (y.noted set).mu.seq = s.mu.seq := (congrArg Mu.seq frame.mu).trans (by rw [← y_eq]; rfl)
    have latched : (y.noted set).mu.latched = some set := (congrArg Mu.latched frame.mu).trans (by rw [← y_eq]; rfl)
    have test' : (y.noted set).sv.selfTest = s.sv.selfTest := (congrArg Sv.selfTest frame.sv).trans (by rw [← y_eq]; rfl)
    have smoke : set.smoke = some { d := d, i := i, b := b, status := smokeStatus d } := by rw [← set_eq, role]; rfl
    have number : set.seq = x.seq := by rw [← set_eq, role]; rfl
    generalize y.noted set = w at nt sc now none seq latched test'
    simp only [State.finish_nt, State.finish_mu, State.finish_sc, State.finish_det, State.finish_sv, State.finish_guards]
    by_cases bad : 512 ≤ d.toNat
    · have invalid : smokeStatus d = .invalid := if_pos bad
      rw [State.learningNotice_other (by simp [smoke, invalid])]
      exact ⟨nt, ⟨set, latched, number⟩, fun _ => ⟨sc, none⟩, fun good => absurd bad (by omega), fun good => absurd bad (by omega)⟩
    · have valid : smokeStatus d = .valid := if_neg bad
      rw [State.learningNotice_valid (by rw [sc]; exact learning) smoke valid]
      by_cases early : s.sc.learnCount < 7
      · rw [sc, if_pos early]
        exact ⟨nt, ⟨set, latched, number⟩, fun yes => absurd yes bad, fun _ _ => ⟨rfl, none⟩,
          fun _ late => absurd early (by omega)⟩
      · rw [sc, if_neg early, State.endStep3_eq]
        generalize v_eq : ({ w with sc := { s.sc with learnCount := 8 } } : State) = v
        have ends := State.step3Ended_ends v
        obtain ⟨o, det⟩ := ends.observation
        have multi : ¬ v.step3Ended.isPanel = true := by
          rw [State.isPanel, ends.sc, ← v_eq]
          simp [config, role]
        rw [State.readProfileLine_of fun k => multi k.1]
        refine ⟨ends.nt.trans (by rw [← v_eq, nt]), ⟨set, (congrArg Mu.latched ends.mu).trans (by rw [← v_eq]; exact latched), number⟩,
          fun yes => absurd yes bad, fun _ few => absurd few early, fun _ _ => ⟨ends.sc.trans (by rw [← v_eq]), ?_, fun idle => ?_⟩⟩
        · rw [det]
          nofun
        · obtain ⟨scanning, -, fresh, -⟩ := ends.selfTest (by rw [← v_eq]; exact test'.trans idle)
          obtain ⟨guard, scan'⟩ := fresh (by rw [← v_eq]; exact none)
          refine ⟨scanning, guard.trans (by rw [← v_eq, now]), scan'.trans (by rw [← v_eq, now, seq])⟩


end Sys2Proof.Machine
end

section
/-! SUPPORT. The completed scan's recipients: the drive outputs, the fault list, a declaration's FIRE, the notices (1.5, 3.5,
10.6). -/
namespace Sys2Proof.Machine

/-! ## The drive outputs at the start of a scan (R3, R4) -/

theorem slotsFrom_start {lag : Nat → Us} {l : List (ScanStep × Us)} {k : Nat} {t : Us} {p : ScanSlot}
    (h : p ∈ slotsFrom lag k t l) : t ≤ p.start := by
  induction l generalizing k t with
  | nil => cases h
  | cons a l ih =>
    obtain rfl | h := List.mem_cons.1 h
    · exact Nat.le_refl t
    · exact Nat.le_trans (Nat.le_add_right t _) (ih h)

/-- At its start a scan stands in the start of the front-end (R3). -/
theorem scanTimeline_start {lag : Nat → Us} {role : Role} {p : ScanSlot} (h : p ∈ scanTimeline lag role) (start : p.start ≤ 0) :
    p.step = .frontEndStart := by
  obtain rfl | h := List.mem_cons.1 h
  · rfl
  · have later : 0 + stepTime lag 0 (.frontEndStart, 70) ≤ p.start := slotsFrom_start h
    have first : 70 ≤ stepTime lag 0 (.frontEndStart, 70) := Nat.le_add_right 70 _
    exact absurd (Nat.le_trans first (Nat.le_trans (Nat.le_add_left _ 0) (Nat.le_trans later start))) (by decide)

/-- Without a scan, and at the start of one, the emitters and the bias are off (R4). -/
theorem State.drives_off {s : State} (fresh : ∀ x, s.mu.scan = some x → x.startedAt = s.now) :
    s.irEmitter = false ∧ s.blueEmitter = false ∧ s.thermistorBias = false := by
  have off (q : ScanSlot → Us → Bool) (hq : ∀ p, p.step = .frontEndStart ∨ 0 < p.start → q p 0 = false) :
      s.scanTime.any (fun t => s.timeline.any (fun p => q p t)) = false := by
    cases scan : s.mu.scan with
    | none => rw [State.scanTime, scan]; rfl
    | some x =>
      have time : s.scanTime = some 0 := by rw [State.scanTime, scan, Option.map_some, fresh x scan, Nat.sub_self]
      have line : s.timeline = scanTimeline x.lag s.cfg.role := by rw [State.timeline, scan]; rfl
      rw [time, line, Option.any_some, List.any_eq_false]
      intro p mem
      rw [hq p (by
        by_cases start : p.start ≤ 0
        · exact .inl (scanTimeline_start mem start)
        · exact .inr (Nat.pos_of_ne_zero fun k => start (Nat.le_of_eq k)))]
      nofun
  have pulse (c : Channel) : s.emitter c = false := by
    refine off (fun p t => decide (p.step = .pulse c ∧ p.start ≤ t ∧ t < p.start + 200)) fun p hp => ?_
    refine decide_eq_false fun ⟨step, start, _⟩ => ?_
    obtain first | late := hp
    · rw [first] at step
      cases step
    · exact absurd start (Nat.not_le.2 late)
  refine ⟨pulse .ir, pulse .blue, off (fun p t => decide (p.step = .settling ∧ p.start ≤ t)) fun p hp => ?_⟩
  refine decide_eq_false fun ⟨step, start⟩ => ?_
  obtain first | late := hp
  · rw [first] at step
    cases step
  · exact absurd start (Nat.not_le.2 late)

/-! ## What raises and clears leave of other pairs (R173 to R175) -/

/-- One record per pair in the fault list. -/
def State.FaultsKeyed (s : State) : Prop := (s.faults.records.map (fun r => (r.code, r.subject))).Nodup

/-- A raised pair's outcome: its record is ACTIVE, or a raise could not be stored (R175). -/
def State.Stored (c : FaultCode) (a : Addr) (s : State) : Prop := s.FaultActive c a ∨ s.faults.storageLoss = true

/-- Raises and clears of other pairs than this one. -/
structure State.Others (c : FaultCode) (a : Addr) (s t : State) : Prop where
  active : s.FaultsKeyed → (t.FaultActive c a ↔ s.FaultActive c a)
  loss : s.faults.storageLoss = true → t.faults.storageLoss = true
  keys : s.FaultsKeyed → t.FaultsKeyed

theorem State.Others.of_eq {c : FaultCode} {a : Addr} {s t : State} (h : t.faults = s.faults) : s.Others c a t where
  active _ := by rw [State.FaultActive, State.FaultActive, h]
  loss k := by rw [h]; exact k
  keys k := by rw [State.FaultsKeyed, h]; exact k

theorem State.Others.trans {c : FaultCode} {a : Addr} {s t u : State} (h : s.Others c a t) (k : t.Others c a u) :
    s.Others c a u where
  active keyed := (k.active (h.keys keyed)).trans (h.active keyed)
  loss := k.loss ∘ h.loss
  keys := k.keys ∘ h.keys

theorem State.Others.stored {c : FaultCode} {a : Addr} {s t : State} (h : s.Others c a t) (keyed : s.FaultsKeyed)
    (k : s.Stored c a) : t.Stored c a := k.imp (h.active keyed).2 h.loss

theorem State.Others.inactive {c : FaultCode} {a : Addr} {s t : State} (h : s.Others c a t) (keyed : s.FaultsKeyed)
    (k : ¬ s.FaultActive c a) : ¬ t.FaultActive c a := mt (h.active keyed).1 k

theorem State.look_storageLoss (s : State) : s.look.faults.storageLoss = s.faults.storageLoss := by
  unfold State.look
  split
  · rfl
  · split
    · rename_i made
      exact (congrArg FaultLog.storageLoss (State.originate_frame made).faults :)
    · split <;> rfl

theorem State.raise_storageLoss (c : FaultCode) (a : Addr) (s : State) :
    (s.raise c a).faults.storageLoss = (s.faults.raise c a s.ms).2.storageLoss := by
  unfold State.raise
  dsimp only
  split
  · rw [State.look_storageLoss, State.panelRecord_faults]
  · rfl

theorem State.clear_storageLoss (c : FaultCode) (a : Addr) (s : State) :
    (s.clear c a).faults.storageLoss = (s.faults.clear c a).2.storageLoss := by
  unfold State.clear
  dsimp only
  split
  · rw [State.look_storageLoss, State.panelRecord_faults]
  · rfl

theorem FaultLog.raise_loss {c : FaultCode} {a : Addr} {now : Ms} {f : FaultLog} (h : f.storageLoss = true) :
    (f.raise c a now).2.storageLoss = true := by
  unfold FaultLog.raise
  split
  · split
    · exact h
    · exact h
  · split
    · exact h
    · split
      · exact h
      · rfl

theorem FaultLog.clear_loss (c : FaultCode) (a : Addr) (f : FaultLog) : (f.clear c a).2.storageLoss = f.storageLoss := by
  unfold FaultLog.clear
  split
  · split <;> rfl
  · rfl

/-- A raise of one pair makes no other pair's record ACTIVE (R173). -/
theorem FaultLog.raise_other {c c' : FaultCode} {a a' : Addr} {now : Ms} {f : FaultLog} (other : (c', a') ≠ (c, a))
    (h : (f.raise c a now).2.Active c' a') : f.Active c' a' := by
  obtain ⟨r, mem, code, subject, active⟩ := h
  have fresh : r ≠ .raised c a now := by
    rintro rfl
    exact other (by rw [← code, ← subject]; rfl)
  unfold FaultLog.raise at mem
  split at mem
  · split at mem
    · exact ⟨r, mem, code, subject, active⟩
    · obtain ⟨x, hx, eq⟩ := List.mem_map.1 mem
      by_cases same : x.isFor c a = true
      · rw [if_pos same] at eq
        exact absurd eq.symm fresh
      · rw [if_neg same] at eq
        exact ⟨r, eq ▸ hx, code, subject, active⟩
  · split at mem
    · exact ⟨r, (List.mem_append.1 mem).resolve_right fun k => fresh (List.mem_singleton.1 k), code, subject, active⟩
    · split at mem
      · have kept := (List.mem_append.1 mem).resolve_right fun k => fresh (List.mem_singleton.1 k)
        exact ⟨r, (List.mem_filter.1 kept).1, code, subject, active⟩
      · exact ⟨r, mem, code, subject, active⟩

/-- A raise leaves its pair's record ACTIVE, or the storage-loss mark (R173, R175). -/
theorem FaultLog.raise_stored (c : FaultCode) (a : Addr) (now : Ms) (f : FaultLog) :
    (f.raise c a now).2.Active c a ∨ (f.raise c a now).2.storageLoss = true := by
  by_cases storable : (∃ r ∈ f.records, r.code = c ∧ r.subject = a) ∨ f.records.length < 8 ∨ ∃ r ∈ f.records, r.active = false
  · exact .inl (FaultLog.raise_active storable)
  · obtain ⟨absent, full⟩ := not_or.1 storable
    obtain ⟨full, active⟩ := not_or.1 full
    have none : leastBy recordBefore (f.records.filter (fun r => !r.active)) = none := by
      rw [leastBy_eq_none, List.filter_eq_nil_iff]
      exact fun r mem off => active ⟨r, mem, by simpa using off⟩
    have found : recordOf c a f.records = Option.none := recordOf_eq_none.2 fun r mem k => absent ⟨r, mem, k⟩
    simp only [FaultLog.raise, found, if_neg full, none]
    exact .inr trivial

theorem State.raise_stored (c : FaultCode) (a : Addr) (s : State) : (s.raise c a).Stored c a :=
  (FaultLog.raise_stored c a s.ms s.faults).imp (State.raise_active c a c a s).2 (State.raise_storageLoss c a s).trans

theorem State.raise_others {c c' : FaultCode} {a a' : Addr} (other : (c, a) ≠ (c', a')) (s : State) :
    s.Others c a (s.raise c' a') where
  active keyed := (State.raise_active c' a' c a s).trans ⟨FaultLog.raise_other other, FaultLog.raise_keeps_active keyed⟩
  loss k := (State.raise_storageLoss c' a' s).trans (FaultLog.raise_loss k)
  keys := (State.raise_frame c' a' s).faults.keys

theorem State.clear_others {c c' : FaultCode} {a a' : Addr} (other : (c, a) ≠ (c', a')) (s : State) :
    s.Others c a (s.clear c' a') where
  active _ := (State.clear_active c' a' c a s).trans (FaultLog.clear_other other)
  loss k := (State.clear_storageLoss c' a' s).trans ((FaultLog.clear_loss c' a' s.faults).trans k)
  keys := (State.clear_frame c' a' s).faults.keys

theorem State.askRun_others {q : RunRequest} {c c' : FaultCode} {a : Addr} (other : c ≠ c') {s x : State}
    (same : x.faults = s.faults) : s.Others c a (x.askRun q c') := by
  have pairs : (c, a) ≠ (c', x.cfg.address) := fun k => other (congrArg Prod.fst k)
  cases q with
  | nothing => exact .of_eq same
  | raise => exact State.Others.trans (.of_eq same) (State.raise_others pairs x)
  | clear => exact State.Others.trans (.of_eq same) (State.clear_others pairs x)

/-- What a request about a pair brings of it (R11). -/
def State.Answered (q : RunRequest) (c : FaultCode) (a : Addr) (s : State) : Prop :=
  (q = .raise → s.Stored c a) ∧ (q = .clear → ¬ s.FaultActive c a)

theorem State.Others.answered {q : RunRequest} {c : FaultCode} {a : Addr} {s t : State} (h : s.Others c a t)
    (keyed : s.FaultsKeyed) (k : s.Answered q c a) : t.Answered q c a :=
  ⟨fun ask => h.stored keyed (k.1 ask), fun ask => h.inactive keyed (k.2 ask)⟩

theorem State.askRun_answered (q : RunRequest) (c : FaultCode) {s : State} (keyed : s.FaultsKeyed) :
    (s.askRun q c).Answered q c s.cfg.address := by
  refine ⟨?_, ?_⟩
  · rintro rfl
    exact State.raise_stored c _ s
  · rintro rfl
    exact State.clear_faultInactive keyed

/-! ## The fault list after the counts (R11, R15, R178) -/

/-- What the recipients that count a set bring of the own address's faults. -/
structure State.CountedFaults (set : SampleSet) (s t : State) : Prop where
  keys : t.FaultsKeyed
  battery : t.Answered (s.sv.watchAsks s.cfg.lowBattery set.v.toNat) .lowBattery s.cfg.address
  stall : t.Answered (if s.sv.completedScans = 2 then .clear else .nothing) .scanStall s.cfg.address
  smoke : t.Answered (s.mu.smokeAsks set) .chamber s.cfg.address
  heat : t.Answered (s.mu.heatAsks set) .heatSensor s.cfg.address

/-- One request of the recipients: what it brings of its own pair and leaves of the others. -/
theorem State.askRun_step (q : RunRequest) (c : FaultCode) {s : State} (keyed : s.FaultsKeyed) (w : Sv) (m : Mu) :
    let t := State.askRun q c { s with sv := w, mu := m }
    State.FaultFrame { s with sv := w, mu := m } t ∧ t.FaultsKeyed ∧ t.Answered q c s.cfg.address ∧
      ∀ c' a, c' ≠ c → s.Others c' a t := by
  intro t
  have frame := State.askRun_frame q c { s with sv := w, mu := m }
  exact ⟨frame, frame.faults.keys keyed, State.askRun_answered q c (s := { s with sv := w, mu := m }) keyed,
    fun _ _ other => State.askRun_others other rfl⟩

theorem State.counted_faults (set : SampleSet) {s : State} (keyed : s.FaultsKeyed) : s.CountedFaults set (s.counted set) := by
  rw [State.counted, State.batteryWatch_eq, State.scanCounted_eq, State.smokeRunTakes_eq, State.heatRunTakes_eq]
  obtain ⟨frameW, keyedW, battery, -⟩ := State.askRun_step (s.sv.watchAsks s.cfg.lowBattery set.v.toNat) .lowBattery keyed
    (s.sv.watched s.cfg.lowBattery set.v.toNat) s.mu
  generalize State.askRun _ .lowBattery _ = w at frameW keyedW battery ⊢
  obtain ⟨frameX, keyedX, stall, othersX⟩ := State.askRun_step (if w.sv.completedScans = 2 then .clear else .nothing) .scanStall
    keyedW { w.sv with completedScans := min 3 (w.sv.completedScans + 1) } w.mu
  generalize State.askRun _ .scanStall _ = x at frameX keyedX stall othersX ⊢
  obtain ⟨frameY, keyedY, smoke, othersY⟩ := State.askRun_step (x.mu.smokeAsks set) .chamber keyedX x.sv { x.mu with
    smokeRun := set.smoke.elim x.mu.smokeRun (fun p => (x.mu.smokeRun.take p.status).2) }
  generalize State.askRun _ .chamber _ = y at frameY keyedY smoke othersY ⊢
  obtain ⟨frameZ, keyedZ, heat, othersZ⟩ := State.askRun_step (y.mu.heatAsks set) .heatSensor keyedY y.sv { y.mu with
    heatRun := set.heat.elim y.mu.heatRun (fun p => (y.mu.heatRun.take p.status).2) }
  generalize State.askRun _ .heatSensor _ = z at frameZ keyedZ heat othersZ ⊢
  have ownW : w.cfg = s.cfg := congrArg (fun c : Sc => c.config.getD ConfigRecord.blank) frameW.sc
  have ownX : x.cfg = s.cfg := (congrArg (fun c : Sc => c.config.getD ConfigRecord.blank) frameX.sc).trans ownW
  have ownY : y.cfg = s.cfg := (congrArg (fun c : Sc => c.config.getD ConfigRecord.blank) frameY.sc).trans ownX
  have counts : w.sv.completedScans = s.sv.completedScans := (congrArg Sv.completedScans frameW.sv :)
  have muX : x.mu = s.mu := frameX.mu.trans frameW.mu
  have muY : y.mu.heatAsks set = s.mu.heatAsks set := (congrArg (Mu.heatAsks set) frameY.mu).trans (by rw [muX]; rfl)
  rw [counts, ownW] at stall
  rw [muX, ownX] at smoke
  rw [muY, ownY] at heat
  exact ⟨keyedZ,
    (othersZ .lowBattery _ nofun).answered keyedY ((othersY .lowBattery _ nofun).answered keyedX
      ((othersX .lowBattery _ nofun).answered keyedW battery)),
    (othersZ .scanStall _ nofun).answered keyedY ((othersY .scanStall _ nofun).answered keyedX stall),
    (othersZ .chamber _ nofun).answered keyedY smoke, heat⟩

/-! ## The self-test's items (R179, R180) -/

theorem itemSubject_low (own : Addr) (k : Nat) : itemSubject own k &&& 0xFF = BitVec.ofNat 16 k &&& 0xFF := by
  have apart : (0xFF00 &&& 0xFF : Addr) = 0#16 := by decide
  rw [itemSubject, BitVec.and_or_distrib_right, BitVec.and_assoc, apart, BitVec.and_zero, BitVec.zero_or]

/-- The items of a self-test have their own subjects (R180). -/
theorem itemSubject_ne {own : Addr} {j k : Nat} (hj : j < 8) (hk : k < 8) (other : j ≠ k) :
    itemSubject own j ≠ itemSubject own k := by
  intro same
  have low : BitVec.ofNat 16 j &&& 0xFF = BitVec.ofNat 16 k &&& 0xFF := by rw [← itemSubject_low own, same, itemSubject_low]
  have apart : ∀ j k : Fin 8, BitVec.ofNat 16 j &&& 0xFF = BitVec.ofNat 16 k &&& 0xFF → j = k := by decide
  exact other (Fin.mk.inj (apart ⟨j, hj⟩ ⟨k, hk⟩ low))

theorem State.recordItem_reports (k : Nat) (passed : Bool) (s : State) : s.Reports (s.recordItem k passed) := by
  unfold State.recordItem
  split
  · exact State.clear_reports _ _ s
  · exact State.raise_reports _ _ s

theorem State.recordItem_others {c : FaultCode} {a : Addr} {k : Nat} {passed : Bool} {s : State}
    (other : (c, a) ≠ (.selfTest, itemSubject s.cfg.address k)) : s.Others c a (s.recordItem k passed) := by
  unfold State.recordItem
  split
  · exact State.clear_others other s
  · exact State.raise_others other s

theorem State.recordItem_answered (k : Nat) (passed : Bool) {s : State} (keyed : s.FaultsKeyed) :
    (s.recordItem k passed).Answered (if passed then .clear else .raise) .selfTest (itemSubject s.cfg.address k) := by
  unfold State.recordItem
  split
  · exact ⟨nofun, fun _ => State.clear_faultInactive keyed⟩
  · exact ⟨fun _ => State.raise_stored _ _ s, nofun⟩

/-- The items recorded one after another (R180). -/
def State.items (passed : Nat → Bool) (l : List Nat) (s : State) : State := l.foldl (fun t k => t.recordItem k (passed k)) s

theorem State.items_frame (passed : Nat → Bool) (l : List Nat) (s : State) : s.FaultFrame (s.items passed l) :=
  State.FaultFrame.foldl (fun t k => State.recordItem_frame k (passed k) t) l s

theorem State.items_reports (passed : Nat → Bool) (l : List Nat) (s : State) : s.Reports (s.items passed l) := by
  induction l generalizing s with
  | nil => exact .refl s
  | cons k l ih => exact (State.recordItem_reports k (passed k) s).trans (ih _)

theorem State.items_others {c : FaultCode} {a : Addr} {passed : Nat → Bool} {l : List Nat} {s : State}
    (other : ∀ k ∈ l, (c, a) ≠ (.selfTest, itemSubject s.cfg.address k)) : s.Others c a (s.items passed l) := by
  induction l generalizing s with
  | nil => exact .of_eq rfl
  | cons k l ih =>
    have frame := State.recordItem_frame k (passed k) s
    refine (State.recordItem_others (other k (List.mem_cons_self ..))).trans (ih fun j mem => ?_)
    rw [State.cfg, frame.sc]
    exact other j (List.mem_cons_of_mem _ mem)

/-- Each recorded item stands as it passed or failed (R180). -/
theorem State.items_answered {passed : Nat → Bool} {l : List Nat} {s : State} (keyed : s.FaultsKeyed) (nodup : l.Nodup)
    (small : ∀ k ∈ l, k < 8) {k : Nat} (mem : k ∈ l) : (s.items passed l).Answered (if passed k then .clear else .raise)
      .selfTest (itemSubject s.cfg.address k) := by
  induction l generalizing s with
  | nil => cases mem
  | cons j l ih =>
    have frame := State.recordItem_frame j (passed j) s
    have keyed' : (s.recordItem j (passed j)).FaultsKeyed := frame.faults.keys keyed
    have own : (s.recordItem j (passed j)).cfg = s.cfg := congrArg (fun c : Sc => c.config.getD ConfigRecord.blank) frame.sc
    obtain ⟨absent, nodup⟩ := List.nodup_cons.1 nodup
    obtain rfl | mem := List.mem_cons.1 mem
    · refine (State.items_others (passed := passed) (l := l) (s := s.recordItem k (passed k)) fun i hi => ?_).answered keyed' (State.recordItem_answered k (passed k) keyed)
      rw [own]
      refine fun same => itemSubject_ne (small k (List.mem_cons_self ..)) (small i (List.mem_cons_of_mem _ hi)) ?_
        (congrArg Prod.snd same)
      rintro rfl
      exact absent hi
    · have := ih keyed' nodup (fun i hi => small i (List.mem_cons_of_mem _ hi)) mem
      rw [own] at this
      exact this

/-- The items of a notice, each judged on the station's figures (R180). -/
theorem State.selfTestNotice_eq (set : Option SampleSet) (s : State) : s.selfTestNotice set =
    let t := s.items (fun k => set.any (fun x => itemPasses s.cfg.lowBattery s.ev x k)) (scanItems s.cfg.role)
    State.beginRead 1 .selfTest { t with sv := { t.sv with selfTest := .reading } } := by
  have same (l : List Nat) (t : State) (h : t.sc = s.sc) : l.foldl
      (fun t k => t.recordItem k (set.any (fun x => itemPasses t.cfg.lowBattery s.ev x k))) t =
      t.items (fun k => set.any (fun x => itemPasses s.cfg.lowBattery s.ev x k)) l := by
    induction l generalizing t with
    | nil => rfl
    | cons k l ih =>
      have cfg : t.cfg = s.cfg := congrArg (fun c : Sc => c.config.getD ConfigRecord.blank) h
      rw [List.foldl_cons, cfg, ih _ ((State.recordItem_frame _ _ t).sc.trans h)]
      rfl
  rw [State.selfTestNotice]
  dsimp only
  rw [same _ s rfl]

/-! ## The notices of learning and self-test (R180, R190) -/

/-- What the notices leave of the evaluation, the counts, the floods made and those that wait. -/
structure State.Notices (s t : State) : Prop where
  now : t.now = s.now
  ev : t.ev = s.ev
  nt : t.nt = s.nt
  observation : ∃ o, t.det = { s.det with observation := o }
  fires : t.fu.fires = s.fu.fires
  overflow : t.fu.overflow = s.fu.overflow
  waiters : t.fu.waiters = s.fu.waiters
  frames : s.FramesKept t
  mu : t.mu = { s.mu with scan := t.mu.scan, seq := t.mu.seq }
  sv : t.sv = { s.sv with selfTest := t.sv.selfTest }
  config : t.sc.config = s.sc.config
  attempts : s.sc.attempts ≤ t.sc.attempts

theorem State.Notices.refl (s : State) : s.Notices s :=
  ⟨rfl, rfl, rfl, ⟨_, rfl⟩, rfl, rfl, rfl, .refl s, rfl, rfl, rfl, Nat.le_refl _⟩

theorem State.Notices.trans {s t u : State} (h : s.Notices t) (k : t.Notices u) : s.Notices u := by
  obtain ⟨o, det⟩ := h.observation
  obtain ⟨o', det'⟩ := k.observation
  refine ⟨k.now.trans h.now, k.ev.trans h.ev, k.nt.trans h.nt, ⟨o', by rw [det', det]⟩, k.fires.trans h.fires,
    k.overflow.trans h.overflow, k.waiters.trans h.waiters, h.frames.trans k.frames, ?_, ?_, k.config.trans h.config,
    Nat.le_trans h.attempts k.attempts⟩
  · rw [k.mu, h.mu]
  · rw [k.sv, h.sv]

/-- The learning sequence's notice, on a MULTI station with no scan in flight (R190). -/
theorem State.learningNotice_notices {set : SampleSet} {s : State} (multi : set.smoke ≠ none → s.isPanel = false)
    (idle : s.mu.scan = none) : s.Notices (s.learningNotice set) ∧ (s.learningNotice set).faults = s.faults ∧
      (s.learningNotice set).sc.attempts = s.sc.attempts ∧
      ∀ x, (s.learningNotice set).mu.scan = some x → x.startedAt = s.now := by
  have none (t : State) (same : t.mu.scan = s.mu.scan) : ∀ x, t.mu.scan = some x → x.startedAt = s.now := by
    rw [same, idle]
    nofun
  by_cases counts : s.sc.learning = .learning ∧ ∃ p, set.smoke = some p ∧ p.status = .valid
  · obtain ⟨learning, p, smoke, valid⟩ := counts
    have other : s.isPanel = false := multi (by rw [smoke]; nofun)
    rw [State.learningNotice_valid learning smoke valid]
    split
    · exact ⟨{ State.Notices.refl s with frames := .of_eq rfl }, rfl, rfl, none _ rfl⟩
    · generalize v_eq : ({ s with sc := { s.sc with learnCount := 8 } } : State) = v
      have ends := State.step3Ended_ends v
      obtain ⟨o, det⟩ := ends.observation
      have unread : ¬ (v.step3Ended.isPanel = true ∧ v.step3Ended.lu.profileLine.level = true) := fun k => by
        rw [State.isPanel, ends.sc, ← v_eq] at k
        exact absurd k.1 (by rw [← State.isPanel, other]; nofun)
      rw [State.endStep3_eq, State.readProfileLine_of unread]
      refine ⟨⟨?_, ?_, ?_, ⟨some o, ?_⟩, ?_, ?_, ?_, ?_, ?_, ?_, ?_, ?_⟩, ?_, ?_, fun x some => ?_⟩
      · rw [ends.now, ← v_eq]
      · rw [ends.ev, ← v_eq]
      · rw [ends.nt, ← v_eq]
      · rw [det, ← v_eq]
      · rw [ends.fu, ← v_eq]
      · rw [ends.fu, ← v_eq]
      · rw [ends.fu, ← v_eq]
      · exact State.FramesKept.trans (t := v) (.of_eq (by rw [← v_eq])) ends.frames
      · exact ends.mu.trans (by rw [← v_eq])
      · exact ends.sv.trans (by rw [← v_eq])
      · rw [ends.sc, ← v_eq]
      · exact Nat.le_of_eq (by rw [ends.sc, ← v_eq])
      · rw [State.step3Ended_faults, ← v_eq]
      · rw [ends.sc, ← v_eq]
      · exact (ends.fresh (by rw [← v_eq]; exact idle) x some).trans (by rw [← v_eq])
  · rw [State.learningNotice_other counts]
    exact ⟨.refl s, rfl, rfl, none s rfl⟩

/-- The self-test's notice (R180). -/
theorem State.selfTestNotice_notices (set : Option SampleSet) (s : State) : s.Notices (s.selfTestNotice set) ∧
    (s.selfTestNotice set).mu = s.mu ∧ (s.selfTestNotice set).det = s.det ∧ (s.selfTestNotice set).sv.selfTest = .reading ∧
    (s.selfTestNotice set).guards = { s.guards with configRead := some (s.now + 100000) } ∧
    (s.selfTestNotice set).sc = { s.sc with
      read := some { number := 1, serial := s.sc.attempts + 1, purpose := .selfTest }, attempts := s.sc.attempts + 1 } := by
  rw [State.selfTestNotice_eq]
  dsimp only
  have frame := State.items_frame (fun k => set.any (fun x => itemPasses s.cfg.lowBattery s.ev x k)) (scanItems s.cfg.role) s
  have reports := State.items_reports (fun k => set.any (fun x => itemPasses s.cfg.lowBattery s.ev x k)) (scanItems s.cfg.role) s
  generalize s.items (fun k => set.any (fun x => itemPasses s.cfg.lowBattery s.ev x k)) (scanItems s.cfg.role) = t at *
  rw [State.beginRead_eq]
  refine ⟨⟨frame.now, frame.ev, frame.nt, ⟨s.det.observation, frame.det⟩, frame.fires, frame.overflow,
    (congrArg Fu.waiters reports.fu :), reports.frames.trans (.of_eq rfl), ?_, ?_, (congrArg Sc.config frame.sc :), ?_⟩,
    frame.mu, frame.det, rfl, ?_, ?_⟩
  · change t.mu = { s.mu with scan := t.mu.scan, seq := t.mu.seq }
    rw [frame.mu]
  · change ({ t.sv with selfTest := SelfTest.reading } : Sv) = _
    rw [frame.sv]
  · change s.sc.attempts ≤ t.sc.attempts + 1
    rw [frame.sc]
    exact Nat.le_succ _
  · change ({ t.guards with configRead := some (t.now + 100000) } : Guards) = _
    rw [reports.guards, frame.now]
  · change ({ t.sc with read := _, attempts := t.sc.attempts + 1 } : Sc) = _
    rw [frame.sc]

theorem State.selfTestNotice_others {set : Option SampleSet} {c : FaultCode} {s : State} (other : c ≠ .selfTest) (a : Addr) :
    s.Others c a (s.selfTestNotice set) := by
  rw [State.selfTestNotice_eq]
  refine State.Others.trans (State.items_others fun k _ => ?_) (.of_eq rfl)
  exact fun same => other (congrArg Prod.fst same)

theorem State.selfTestNotice_answered {set : Option SampleSet} {s : State} {k : Nat} (keyed : s.FaultsKeyed)
    (mem : k ∈ scanItems s.cfg.role) : (s.selfTestNotice set).Answered
      (if set.any (fun x => itemPasses s.cfg.lowBattery s.ev x k) then .clear else .raise) .selfTest
      (itemSubject s.cfg.address k) := by
  rw [State.selfTestNotice_eq]
  have stands := State.items_answered (passed := fun k => set.any (fun x => itemPasses s.cfg.lowBattery s.ev x k))
    (l := scanItems s.cfg.role) keyed (by unfold scanItems; split <;> decide) (by unfold scanItems; split <;> decide) mem
  have keys : (s.items (fun k => set.any (fun x => itemPasses s.cfg.lowBattery s.ev x k)) (scanItems s.cfg.role)).FaultsKeyed :=
    (State.items_frame _ _ s).faults.keys keyed
  exact State.Others.answered (.of_eq rfl) keys stands

/-! ## A declaration's FIRE (R51, R137, R138) -/

/-- The FIRE a station would compose next (R91). -/
def State.fireFrame (c : FireCause) (e : Nat) (s : State) : List Byte :=
  Frame.compose s.cfg kindFire (floodHeader s.cfg s.fu.run s.fu.seqCounter s.fu.epoch ++ c.code :: nat16Bytes e)

/-- A frame stands in a buffer that is taken. -/
def State.Carrying (f : List Byte) (s : State) : Prop := ∃ b, (s.buf b).state ≠ .free ∧ (s.buf b).frame = f

theorem State.FramesKept.carrying {f : List Byte} {s t : State} (h : s.FramesKept t) (k : s.Carrying f) : t.Carrying f :=
  have ⟨b, taken, frame⟩ := k
  have ⟨taken', _, frame', _⟩ := h b taken
  ⟨b, taken', frame'.trans frame⟩

/-- A FIRE asked for is made where it can be, and otherwise one waits (R138). -/
theorem State.askFire_result (c : FireCause) (e : Nat) (s : State) :
    (s.CanOriginate .urgent → (s.askFire c e).Carrying (s.fireFrame c e)) ∧
    (¬ s.CanOriginate .urgent → ∃ ca ed, .fire ca ed ∈ (s.askFire c e).fu.waiters) := by
  refine ⟨fun can => ?_, fun cannot => ?_⟩
  · obtain ⟨t, made, eq⟩ := State.askFire_of_can c e can
    obtain ⟨-, b, -, taken, -, frame⟩ := State.originate_flood made nofun
    rw [eq]
    exact ⟨b, taken, frame⟩
  · rw [State.askFire_of_cannot c e cannot]
    split
    · rename_i waits
      obtain ⟨w, mem, fire⟩ := List.any_eq_true.1 waits
      cases w with
      | fire ca ed => exact ⟨ca, ed, mem⟩
      | silence => cases fire
      | reset _ => cases fire
      | relay _ => cases fire
    · exact ⟨c, e, List.mem_append_right _ (List.mem_singleton.2 rfl)⟩

theorem State.enterState_fu (st : DetState) (s : State) : (s.enterState st).fu = s.fu := by
  unfold State.enterState
  split
  · unfold State.takePending
    split
    · exact (State.takeProfile_offers _ _).fu
    · rfl
  · rfl

/-- Without a pending profile at the end of VERIFY, the first part of a change of state leaves the transmit path (R56). -/
theorem State.enterState_path {st : DetState} {s : State} (h : s.det.state ≠ .verify ∨ s.det.pendingProfile = none) :
    (s.enterState st).pool = s.pool ∧ (s.enterState st).tu = s.tu := by
  unfold State.enterState
  split
  · rename_i verify
    have none : (s.setDetState st).det.pendingProfile = none := h.resolve_left fun other => other verify
    rw [State.takePending_of_none none]
    exact ⟨rfl, rfl⟩
  · exact ⟨rfl, rfl⟩

/-- The declaration's state before its FIRE is asked for (R50, R52). -/
def State.declared (c : FireCause) (s : State) : State :=
  State.enterFire s.cfg.address s.cfg.zone c.code { s with det := { s.det with
    cause := some c, evidence := some s.ev.e, refresh := some (s.now + 30000000) } }

theorem State.declare_eq (c : FireCause) (s : State) : s.declare c = (s.declared c).askFire c s.ev.e := rfl

theorem State.enterFire_seqCounter (o : Addr) (z c : Byte) (s : State) :
    (s.enterFire o z c).fu.seqCounter = s.fu.seqCounter := by
  unfold State.enterFire
  dsimp only
  split
  · rfl
  · split
    · rw [State.panelRecord_eq]
    · rfl

/-- What a change to FIRE brings: its FIRE made, or one that waits, and the own origin (R50, R51, R138, R144). -/
structure State.Declares (c : FireCause) (s t : State) : Prop where
  result : t.Carrying (s.fireFrame c s.ev.e) ∨ ∃ ca ed, .fire ca ed ∈ t.fu.waiters
  made : s.CanOriginate .urgent → (s.det.state ≠ .verify ∨ s.det.pendingProfile = none) → t.Carrying (s.fireFrame c s.ev.e)
  listed : (∃ f ∈ s.fu.fires, f.origin = s.cfg.address) → t.fu.fires = s.fu.fires ∧ t.fu.overflow = s.fu.overflow
  entered : (∀ f ∈ s.fu.fires, f.origin ≠ s.cfg.address) → s.fu.fires.length < 8 → t.fu.overflow = s.fu.overflow ∧
    t.fu.fires = s.fu.fires ++ [{ origin := s.cfg.address, zone := s.cfg.zone, cause := c.code, silenced := false }]
  full : (∀ f ∈ s.fu.fires, f.origin ≠ s.cfg.address) → 8 ≤ s.fu.fires.length →
    t.fu.fires = s.fu.fires ∧ t.fu.overflow = true

/-- What follows a declaration keeps its FIRE and the list. -/
theorem State.Declares.later {c : FireCause} {s t u : State} (h : s.Declares c t) (frames : t.FramesKept u)
    (waiters : u.fu.waiters = t.fu.waiters) (fires : u.fu.fires = t.fu.fires) (overflow : u.fu.overflow = t.fu.overflow) :
    s.Declares c u where
  result := h.result.imp frames.carrying (by rw [waiters]; exact id)
  made can path := frames.carrying (h.made can path)
  listed k := by rw [fires, overflow]; exact h.listed k
  entered k l := by rw [fires, overflow]; exact h.entered k l
  full k l := by rw [fires, overflow]; exact h.full k l

/-- What an entry in the fire origin list brings (R144). -/
theorem State.enterFire_lists (o : Addr) (z c : Byte) (s : State) :
    ((∃ f ∈ s.fu.fires, f.origin = o) → (s.enterFire o z c).fu.fires = s.fu.fires ∧
      (s.enterFire o z c).fu.overflow = s.fu.overflow) ∧
    ((∀ f ∈ s.fu.fires, f.origin ≠ o) → s.fu.fires.length < 8 → (s.enterFire o z c).fu.overflow = s.fu.overflow ∧
      (s.enterFire o z c).fu.fires = s.fu.fires ++ [{ origin := o, zone := z, cause := c, silenced := false }]) ∧
    ((∀ f ∈ s.fu.fires, f.origin ≠ o) → 8 ≤ s.fu.fires.length → (s.enterFire o z c).fu.fires = s.fu.fires ∧
      (s.enterFire o z c).fu.overflow = true) := by
  refine ⟨fun listed => ?_, fun absent room => ?_, fun absent full => ?_⟩
  · rw [State.enterFire_listed listed]
    exact ⟨rfl, rfl⟩
  · rw [State.enterFire_absent absent room]
    exact ⟨(State.panelRecord_frame _ _ _ _ _ _).overflow, (State.panelRecord_frame _ _ _ _ _ _).fires⟩
  · rw [State.enterFire_full absent full]
    exact ⟨rfl, rfl⟩

/-- The declaration's state leaves the transmit path and what its FIRE is composed of. -/
theorem State.declared_eq (c : FireCause) (s : State) : (s.declared c).fireFrame c s.ev.e = s.fireFrame c s.ev.e ∧
    ((s.declared c).CanOriginate .urgent ↔ s.CanOriginate .urgent) := by
  have listed := State.enterFire_judge s.cfg.address s.cfg.zone c.code { s with det := { s.det with
    cause := some c, evidence := some s.ev.e, refresh := some (s.now + 30000000) } }
  have keeps := State.enterFire_keeps s.cfg.address s.cfg.zone c.code { s with det := { s.det with
    cause := some c, evidence := some s.ev.e, refresh := some (s.now + 30000000) } }
  have config : (s.declared c).cfg = s.cfg := congrArg (fun c : Sc => c.config.getD ConfigRecord.blank) listed.sc
  have run : (s.declared c).fu.run = s.fu.run := listed.run
  have epoch : (s.declared c).fu.epoch = s.fu.epoch := listed.epoch
  have seq : (s.declared c).fu.seqCounter = s.fu.seqCounter := State.enterFire_seqCounter _ _ _ _
  refine ⟨?_, State.canOriginate_congr keeps.1 keeps.2⟩
  rw [State.fireFrame, State.fireFrame, config, run, epoch, seq]

theorem State.declare_declares (c : FireCause) (s : State) : s.Declares c (s.declare c) := by
  obtain ⟨same, can⟩ := State.declared_eq c s
  have asked := State.askFire_result c s.ev.e (s.declared c)
  have after := State.askFire_frame c s.ev.e (s.declared c)
  obtain ⟨listed, entered, full⟩ := State.enterFire_lists s.cfg.address s.cfg.zone c.code { s with det := { s.det with
    cause := some c, evidence := some s.ev.e, refresh := some (s.now + 30000000) } }
  rw [same] at asked
  rw [State.declare_eq]
  refine ⟨?_, fun h _ => asked.1 (can.2 h), ?_, ?_, ?_⟩
  · by_cases h : s.CanOriginate .urgent
    · exact .inl (asked.1 (can.2 h))
    · exact .inr (asked.2 (mt can.1 h))
  · rw [after.fires, after.overflow]
    exact listed
  · rw [after.fires, after.overflow]
    exact entered
  · rw [after.fires, after.overflow]
    exact full

theorem State.announceState_offers (s : State) : s.OffersQuietly s.announceState := by
  obtain ⟨d, e, eq⟩ := State.restartObservation_eq s
  rw [State.announceState_eq]
  refine State.OffersQuietly.trans ?_ (State.requestObservation_offers _)
  rw [eq]
  exact ⟨⟨.of_eq rfl, .refl _, rfl⟩, rfl, rfl, rfl⟩

theorem State.enterFireState_declares (c : FireCause) (s : State) : s.Declares c (s.enterFireState c) := by
  have frame := State.enterState_frame .fire s
  have fu := State.enterState_fu .fire s
  have path : (s.det.state ≠ .verify ∨ s.det.pendingProfile = none) → _ := State.enterState_path (st := .fire)
  have declares := State.declare_declares c (s.enterState .fire)
  have later := State.announceState_offers ((s.enterState .fire).declare c)
  rw [State.enterFireState_eq]
  generalize s.enterState .fire = x at frame fu path declares later
  have cfg : x.cfg = s.cfg := congrArg (fun c : Sc => c.config.getD ConfigRecord.blank) frame.sc
  have ev : x.ev = s.ev := frame.ev
  have same : x.fireFrame c x.ev.e = s.fireFrame c s.ev.e := by rw [State.fireFrame, State.fireFrame, cfg, fu, ev]
  obtain ⟨result, made, listed, entered, full⟩ := declares.later later.frames (by rw [later.fu]) (by rw [later.fu])
    (by rw [later.fu])
  rw [same] at result made
  rw [cfg, fu] at listed entered full
  exact ⟨result, fun can h => made ((State.canOriginate_congr (path h).1 (path h).2).2 can)
    (.inl (by rw [frame.det]; simp)), listed, entered, full⟩

/-! ## The hand-on as a whole (R7) -/

theorem Evidence.baselineStep_e (made : DetState) (part : Option SmokePart) (v : Evidence) :
    (v.baselineStep made part).2.e = v.e := by
  unfold Evidence.baselineStep
  split
  · split
    · split
      · dsimp only [Evidence.learnStep]
        split <;> rfl
      · split <;> rfl
    · rfl
  · rfl

theorem State.noted_detector {set : SampleSet} {s : State} (detector : s.isDetector = true) :
    (s.noted set).det = ((s.figured set).transitions set.computedTheta).det ∧
    ((s.figured set).transitions set.computedTheta).FramesKept (s.noted set) ∧
    (s.noted set).fu.waiters = ((s.figured set).transitions set.computedTheta).fu.waiters ∧
    (s.noted set).fu.fires = ((s.figured set).transitions set.computedTheta).fu.fires ∧
    (s.noted set).fu.overflow = ((s.figured set).transitions set.computedTheta).fu.overflow := by
  rw [State.noted, if_pos detector]
  have evaluated : (s.baselined set).Reports (s.evaluate set) := by
    rw [State.evaluate_eq]
    split
    · exact State.raiseOwn_reports _ _
    · exact .refl _
  have reports := evaluated.trans (State.counted_reports set _)
  refine ⟨(State.counted_frame set _).det.trans (State.evaluate_frame set s).det, ?_, ?_, ?_, ?_⟩
  · exact State.FramesKept.trans (t := s.baselined set) (.of_eq rfl) reports.frames
  · rw [reports.fu]
    rfl
  · rw [reports.fu]
    rfl
  · rw [reports.fu]
    rfl

/-- What the notices of a set bring of the scan, the controller and the self-test; `s` is the state latched, `w` the one whose
recipients have counted (R7). -/
structure State.Handed (x : Scan) (set : SampleSet) (s w u : State) : Prop extends State.Notices w u where
  fresh : ∀ y, u.mu.scan = some y → y.startedAt = s.now
  still : x.awaitedLearning = false ∨ set.smoke = none → u.mu.scan = none ∧ u.mu.seq = s.mu.seq ∧ u.guards.scan = s.guards.scan
  det : x.awaitedLearning = false ∨ set.smoke = none → u.det = w.det
  sc : x.awaitedLearning = false → x.awaitedSelfTest = false → u.sc = s.sc ∧ u.sv.selfTest = s.sv.selfTest
  others : ∀ c a, c ≠ .selfTest → w.Others c a u
  test : x.awaitedSelfTest = true → u.sv.selfTest = .reading ∧ u.sc.attempts = s.sc.attempts + 1 ∧
    u.sc.read = some { number := 1, serial := s.sc.attempts + 1, purpose := .selfTest } ∧
    (x.awaitedLearning = false → u.sc = { s.sc with read := u.sc.read, attempts := u.sc.attempts }) ∧
    u.guards.configRead = some (s.now + 100000) ∧ (w.FaultsKeyed → ∀ k ∈ scanItems s.cfg.role,
      u.Answered (if itemPasses s.cfg.lowBattery u.ev set k then .clear else .raise) .selfTest (itemSubject s.cfg.address k))

theorem State.handOn_handed {x : Scan} {set : SampleSet} {s : State} (idle : s.mu.scan = none)
    (multi : set.smoke ≠ none → s.isPanel = false) : State.Handed x set s (s.noted set) (s.handOn x set) := by
  have frame := State.noted_frame set s
  have sc : (s.noted set).sc = s.sc := frame.sc
  have now : (s.noted set).now = s.now := frame.now
  have selfTest : (s.noted set).sv.selfTest = s.sv.selfTest := (congrArg Sv.selfTest frame.sv :)
  have idle' : (s.noted set).mu.scan = none := (congrArg Mu.scan frame.mu :).trans idle
  have seq : (s.noted set).mu.seq = s.mu.seq := (congrArg Mu.seq frame.mu :)
  have guard : (s.noted set).guards.scan = s.guards.scan := (congrArg Guards.scan frame.guards :)
  have multi' : set.smoke ≠ none → (s.noted set).isPanel = false := by rw [State.isPanel, sc]; exact multi
  rw [State.handOn_eq]
  dsimp only
  generalize s.noted set = w at sc now selfTest idle' seq guard multi' ⊢
  have learned : ∃ v, v = (if x.awaitedLearning then w.learningNotice set else w) ∧ w.Notices v ∧ v.faults = w.faults ∧
      v.sc.attempts = w.sc.attempts ∧ (∀ y, v.mu.scan = some y → y.startedAt = w.now) ∧
      (x.awaitedLearning = false ∨ set.smoke = none → v = w) := by
    by_cases learns : x.awaitedLearning = true
    · obtain ⟨notices, faults, attempts, fresh⟩ := State.learningNotice_notices multi' idle'
      refine ⟨_, (if_pos learns).symm, notices, faults, attempts, fresh, fun h => ?_⟩
      obtain no | none := h
      · rw [learns] at no
        cases no
      · exact State.learningNotice_other (by rw [none]; rintro ⟨-, p, some, -⟩; cases some)
    · refine ⟨w, (if_neg learns).symm, .refl w, rfl, rfl, fun y some => ?_, fun _ => rfl⟩
      rw [idle'] at some
      cases some
  obtain ⟨v, v_eq, notices, faults, attempts, fresh, same⟩ := learned
  rw [← v_eq]
  have cfg : v.cfg = s.cfg := by
    rw [State.cfg, notices.config, sc]
    rfl
  have still (h : x.awaitedLearning = false ∨ set.smoke = none) :
      v.mu.scan = none ∧ v.mu.seq = s.mu.seq ∧ v.guards.scan = s.guards.scan := by
    rw [same h]
    exact ⟨idle', seq, guard⟩
  by_cases tests : x.awaitedSelfTest = true
  · obtain ⟨tested, mu, det, reading, guards, controller⟩ := State.selfTestNotice_notices (some set) v
    rw [if_pos tests]
    refine { notices.trans tested with
      fresh := fun y some => ?_
      still := fun h => ?_
      det := fun h => by rw [det, same h]
      sc := fun _ no => ?_
      others := fun c a other => (State.Others.of_eq faults).trans (State.selfTestNotice_others other a)
      test := fun _ => ⟨reading, ?_, ?_, fun no => ?_, ?_, fun keyed k mem => ?_⟩ }
    · rw [mu] at some
      exact (fresh y some).trans now
    · rw [mu, guards]
      exact still h
    · rw [tests] at no
      cases no
    · rw [controller, attempts, sc]
    · rw [controller, attempts, sc]
    · rw [controller, same (.inl no), sc]
    · rw [guards, notices.now, now]
    · have answered := State.selfTestNotice_answered (set := some set) (s := v) (k := k)
        (by rw [State.FaultsKeyed, faults]; exact keyed) (by rw [cfg]; exact mem)
      rw [cfg, ← tested.ev] at answered
      exact answered
  · rw [if_neg tests]
    refine { notices with
      fresh := fun y some => (fresh y some).trans now
      still := still
      det := fun h => by rw [same h]
      sc := fun no _ => ?_
      others := fun c a _ => .of_eq faults
      test := fun yes => absurd yes tests }
    rw [same (.inl no)]
    exact ⟨sc, selfTest⟩

/-! ## The set of a scan (R8 to R11) -/

theorem sampleSet_smoke (role : Role) (n : BitVec 16) (d i b t v : Code) : (sampleSet role n d i b t v).smoke =
    if role = .multi then some { d := d, i := i, b := b, status := smokeStatus d } else none := by
  cases role <;> rfl

theorem sampleSet_heatPart (role : Role) (n : BitVec 16) (d i b t v : Code) : (sampleSet role n d i b t v).heat =
    if role = .multi ∨ role = .heat then some { t := t, status := heatStatusOf t } else none := by
  cases role <;> rfl

theorem sampleSet_computedTheta {role : Role} (detector : role = .multi ∨ role = .heat) (n : BitVec 16) (d i b t v : Code) :
    (sampleSet role n d i b t v).computedTheta =
      if 20 ≤ t.toNat ∧ t.toNat ≤ 1003 then some ((t.toNat : Int) - 200) else none := by
  rw [SampleSet.computedTheta, sampleSet_heatPart, if_pos detector]
  by_cases valid : 20 ≤ t.toNat ∧ t.toNat ≤ 1003
  · have status : heatStatusOf t = .valid := if_neg (by omega)
    simp only [status, if_true, if_pos valid]
    rfl
  · have status : heatStatusOf t = .invalid := if_pos (by omega)
    simp only [status, if_neg valid]
    rfl

/-- A validity run after a part, and what it asks for (R11). -/
theorem ValidityRun.takes (bad : Prop) [Decidable bad] (r : ValidityRun) :
    (r.take (if bad then .invalid else .valid)).2 = (if bad then
      { invalid := min 3 (r.invalid + 1), valid := 0, raised := r.raised || decide (r.invalid = 2) }
    else { invalid := 0, valid := min 3 (r.valid + 1), raised := r.raised && !decide (r.valid = 2) }) ∧
    (bad → r.invalid = 2 → r.raised = false → (r.take (if bad then .invalid else .valid)).1 = .raise) ∧
    (¬ bad → r.valid = 2 → r.raised = true → (r.take (if bad then .invalid else .valid)).1 = .clear) := by
  by_cases h : bad
  · refine ⟨?_, fun _ third clear => ?_, fun good => absurd h good⟩
    · simp only [if_pos h, ValidityRun.take]
      cases r.raised <;> simp
    · simp [if_pos h, ValidityRun.take, third, clear]
  · refine ⟨?_, fun bad => absurd bad h, fun _ third raised => ?_⟩
    · simp only [if_neg h, ValidityRun.take]
      cases r.raised <;> simp
    · simp [if_neg h, ValidityRun.take, third, raised]

/-! ## O13 -/

/-- What an evaluation's transitions bring of the fire origin list (R50, R51). -/
theorem State.transitions_fires (theta : Option Int) (s : State) :
    ((s.det.state = .fire ∨ (s.transitions theta).det.state ≠ .fire) → (s.transitions theta).fu.fires = s.fu.fires ∧
      (s.transitions theta).fu.overflow = s.fu.overflow) ∧
    (s.det.state ≠ .fire → (s.transitions theta).det.state = .fire → ∃ c, (s.transitions theta).det.cause = some c ∧
      (s.transitions theta).det.evidence = some s.ev.e ∧ s.Declares c (s.transitions theta)) := by
  obtain ⟨d, state, eq⟩ | ⟨other, st, ne, eq⟩ | ⟨other, c, eq⟩ := State.transitions_cases theta s
  · rw [eq]
    exact ⟨fun _ => ⟨rfl, rfl⟩, fun no fire => absurd (state.symm.trans fire) no⟩
  · have enter := State.enterState_frame st s
    have announce := State.announceState_frame (s.enterState st)
    rw [eq, State.changeState_state]
    refine ⟨fun _ => ?_, fun _ fire => absurd fire ne⟩
    rw [State.changeState_eq, announce.fires, announce.overflow]
    exact ⟨enter.fires, enter.overflow⟩
  · have record := State.enterFireState_record c s
    rw [eq]
    refine ⟨fun k => ?_, fun _ _ => ⟨c, record.2.2, record.2.1, State.enterFireState_declares c s⟩⟩
    rw [State.enterFireState_state] at k
    exact absurd rfl (k.resolve_left other)

/-- The state in which a completed set is handed on: latched, the scan ended (R7). -/
def State.completed (set : SampleSet) (dt : Us) (s : State) : State := { s with
  now := s.now + dt
  mu := { s.mu with scan := none, latched := some set }
  guards := { s.guards with scan := none } }

theorem State.noted_faults {set : SampleSet} {s : State} (keyed : s.FaultsKeyed) : s.CountedFaults set (s.noted set) := by
  unfold State.noted
  split
  · have judged := State.evaluate_judge set s
    have cfg : (s.evaluate set).cfg = s.cfg := congrArg (fun c : Sc => c.config.getD ConfigRecord.blank) judged.sc
    have sv : (s.evaluate set).sv = s.sv := judged.sv
    have mu : (s.evaluate set).mu = s.mu := judged.mu
    obtain ⟨keys, battery, stall, smoke, heat⟩ := State.counted_faults set (s := s.evaluate set) (judged.faults.keys keyed)
    rw [sv, cfg] at battery stall
    rw [mu, cfg] at smoke heat
    exact ⟨keys, battery, stall, smoke, heat⟩
  · exact State.counted_faults set keyed

/-- What a completion hands on, and to which state. -/
theorem exec_scanCompletion_handed {dt : Us} {x : Scan} {d i b t v : Code} {c : ConfigRecord} {s : State}
    (scan : s.mu.scan = some x) (config : s.sc.config = some c) :
    let set := sampleSet c.role x.seq d i b t v
    ∃ u, exec (.scanCompletion dt x.seq d i b t v) s = .next (State.finish s u) ∧
      State.Handed x set (s.completed set dt) ((s.completed set dt).noted set) u := by
  intro set
  have cfg : s.cfg = c := by rw [State.cfg, config]; rfl
  refine ⟨State.handOn x set (s.completed set dt), ?_, State.handOn_handed rfl fun some => ?_⟩
  · rw [exec_scanCompletion_taken scan, cfg]
    rfl
  · have role : c.role = .multi := by
      refine Classical.byContradiction fun other => ?_
      exact some ((sampleSet_smoke ..).trans (if_neg other))
    change s.sc.config.any _ = false
    rw [config]
    simp [role]

/-- Settles O13: the set (`sampleSet`), the evaluation (`State.noted_frame`, `State.transitions_fires`), the recipients'
requests (`State.counted_faults`) and the notices (`State.Handed`). -/
theorem scanCompletionLatches : Obligations.ScanCompletionLatches := by
  refine ⟨?_, ?_⟩
  · intro dt x d i b t v c s scan config detector
    obtain ⟨u, run, handed⟩ := exec_scanCompletion_handed (dt := dt) (d := d) (i := i) (b := b) (t := t) (v := v) scan config
    have smoke := sampleSet_smoke c.role x.seq d i b t v
    have heat := sampleSet_heatPart c.role x.seq d i b t v
    have number : (sampleSet c.role x.seq d i b t v).seq = x.seq := by cases c.role <;> rfl
    have supply : (sampleSet c.role x.seq d i b t v).v = v := by cases c.role <;> rfl
    have theta : detector → _ := fun k => sampleSet_computedTheta k x.seq d i b t v
    generalize sampleSet c.role x.seq d i b t v = set at run smoke heat number supply theta handed
    have frame := State.noted_frame set (s.completed set dt)
    have once (h : x.awaitedLearning = false ∨ c.role ≠ .multi) : x.awaitedLearning = false ∨ set.smoke = none :=
      h.imp_right fun other => smoke.trans (if_neg other)
    have cfg : (s.completed set dt).cfg = c := by
      change s.sc.config.getD ConfigRecord.blank = c
      rw [config]
      rfl
    have role : (s.completed set dt).isDetector = true ↔ detector := by rw [State.isDetector_iff, cfg]
    have ev : u.ev = (s.completed set dt).evidenceAfter set := handed.ev.trans frame.ev
    obtain ⟨o, observation⟩ := handed.observation
    obtain ⟨ir, blue, bias⟩ := State.drives_off (s := State.finish s u) fun y some => by
      rw [State.finish_mu] at some
      rw [State.finish_now, handed.now, frame.now]
      exact handed.fresh y some
    refine ⟨_, set, run, fun h => ?_, ?_, ir, blue, bias, ?_, number, supply, smoke, heat, fun no => ?_, fun yes => ?_⟩
    · obtain ⟨still, seq, guard⟩ := handed.still (once h)
      refine ⟨?_, ?_, ?_, ?_⟩
      · rw [State.finish_mu, still]
      · rw [State.finish_guards, guard]
        rfl
      · rw [State.finish_mu, seq]
        rfl
      · rw [State.frontEndOn, State.finish_mu, still]
        rfl
    · rw [State.finish_nt, handed.nt, frame.nt]
      rfl
    · rw [State.finish_mu, handed.mu, frame.mu]
      rfl
    · have other : ¬ (s.completed set dt).isDetector = true := mt role.1 no
      rw [State.finish_ev, State.finish_det, ev, State.evidenceAfter, if_neg other,
        handed.det (once (.inr fun k => no (.inl k))), State.noted, if_neg other]
      exact ⟨rfl, (State.counted_frame set (s.completed set dt)).det⟩
    · intro judged det
      have detects := role.2 yes
      obtain ⟨detEq, frames, waiters, fires, overflow⟩ := State.noted_detector (set := set) detects
      have judgedEq : (s.completed set dt).figured set = judged := by
        rw [State.figured, cfg]
        rfl
      rw [theta yes, judgedEq] at detEq frames waiters fires overflow
      obtain ⟨calm, declares⟩ := State.transitions_fires
        (if 20 ≤ t.toNat ∧ t.toNat ≤ 1003 then some ((t.toNat : Int) - 200) else none) judged
      generalize transitions_eq : judged.transitions
        (if 20 ≤ t.toNat ∧ t.toNat ≤ 1003 then some ((t.toNat : Int) - 200) else none) = r at detEq frames waiters fires overflow calm declares
      have detU : u.det = { r.det with observation := o } := by rw [observation, detEq]
      have judgedDet : det = r.det := congrArg State.det transitions_eq
      have ev' : u.ev = ((s.ev.figures c set).baselineStep s.det.state set.smoke).2 := by
        rw [ev, State.evidenceAfter, if_pos detects, cfg]
        rfl
      have e : u.ev.e = judged.ev.e := by
        rw [ev', Evidence.baselineStep_e]
      have firesU : u.fu.fires = r.fu.fires := handed.fires.trans fires
      have overflowU : u.fu.overflow = r.fu.overflow := handed.overflow.trans overflow
      have state : u.det.state = r.det.state := by rw [detU]
      rw [State.finish_ev, State.finish_det, State.finish_fu]
      refine ⟨ev', by rw [judgedDet, detU], fun h => (handed.det (once h)).trans (detEq.trans judgedDet.symm), fun h => ?_, fun before after => ?_⟩
      · rw [firesU, overflowU]
        exact calm (h.imp_right (by rw [state]; exact id))
      · rw [state] at after
        obtain ⟨cause, causeEq, evidence, made⟩ := declares before after
        have cfg' : judged.cfg = c := by
          change s.sc.config.getD ConfigRecord.blank = c
          rw [config]
          rfl
        obtain ⟨result, can, listed, entered, full⟩ := made.later (frames.trans handed.frames) (handed.waiters.trans waiters)
          firesU overflowU
        rw [cfg'] at listed entered full
        rw [State.fireFrame, cfg', ← e] at result can
        refine ⟨cause, by rw [detU]; exact causeEq, by rw [detU, e]; exact evidence, listed, entered, full, ?_, fun h path => ?_⟩
        · exact result.imp_left fun ⟨b, _, frame⟩ => ⟨b, (congrArg Buffer.frame (State.finish_buf s u b)).trans frame⟩
        · obtain ⟨b, _, frame⟩ := can ((State.canOriginate_congr rfl rfl).2 h) path
          exact ⟨b, (congrArg Buffer.frame (State.finish_buf s u b)).trans frame⟩
  · intro dt x d i b t v c s scan config keyed
    obtain ⟨u, run, handed⟩ := exec_scanCompletion_handed (dt := dt) (d := d) (i := i) (b := b) (t := t) (v := v) scan config
    have smoke := sampleSet_smoke c.role x.seq d i b t v
    have heat := sampleSet_heatPart c.role x.seq d i b t v
    have supply : (sampleSet c.role x.seq d i b t v).v = v := by cases c.role <;> rfl
    generalize sampleSet c.role x.seq d i b t v = set at run smoke heat supply handed
    have frame := State.noted_frame set (s.completed set dt)
    have faults := State.noted_faults (set := set) (s := s.completed set dt) keyed.faults
    have cfg : (s.completed set dt).cfg = c := by
      change s.sc.config.getD ConfigRecord.blank = c
      rw [config]
      rfl
    obtain ⟨keys, battery, stall, smokeFault, heatFault⟩ := faults
    rw [cfg] at battery stall smokeFault heatFault
    rw [supply] at battery
    have runs : (State.finish s u).mu.smokeRun = set.smoke.elim s.mu.smokeRun (fun p => (s.mu.smokeRun.take p.status).2) ∧
        (State.finish s u).mu.heatRun = set.heat.elim s.mu.heatRun (fun p => (s.mu.heatRun.take p.status).2) := by
      rw [State.finish_mu, handed.mu, frame.mu]
      exact ⟨rfl, rfl⟩
    have counts : (State.finish s u).sv = { s.sv with
        below := if v.toNat < c.lowBattery then min 3 (s.sv.below + 1) else 0
        above := if c.lowBattery + 25 < v.toNat then min 3 (s.sv.above + 1) else 0
        completedScans := min 3 (s.sv.completedScans + 1)
        selfTest := u.sv.selfTest } := by
      rw [State.finish_sv, handed.sv, frame.sv]
      change ({ State.counts set (s.completed set dt) with selfTest := u.sv.selfTest } : Sv) = _
      rw [State.counts, cfg, supply]
      rfl
    have answered {q : RunRequest} {f : FaultCode} (h : ((s.completed set dt).noted set).Answered q f c.address)
        (ne : f ≠ .selfTest) :
        (q = .raise → (State.finish s u).FaultActive f c.address ∨ (State.finish s u).faults.storageLoss = true) ∧
        (q = .clear → ¬ (State.finish s u).FaultActive f c.address) := by
      rw [State.finish_faultActive, State.finish_faults]
      exact (handed.others f c.address ne).answered keys h
    have smokeOf (role : c.role = .multi) : set.smoke = some { d := d, i := i, b := b, status := smokeStatus d } :=
      smoke.trans (if_pos role)
    have heatOf (role : c.role = .multi ∨ c.role = .heat) : set.heat = some { t := t, status := heatStatusOf t } :=
      heat.trans (if_pos role)
    refine ⟨_, run, ?_, fun noTest noLearn => ?_, fun test => ?_⟩
    · rw [counts]
      intro badSmoke badHeat low high
      obtain ⟨smokeRun, smokeRaises, smokeClears⟩ := s.mu.smokeRun.takes badSmoke
      obtain ⟨heatRun, heatRaises, heatClears⟩ := s.mu.heatRun.takes badHeat
      refine ⟨fun role => ?_, fun role => ?_, fun role bad third clear => ?_, fun role good third raised => ?_, fun role other => ?_,
        fun role => ?_, fun role bad third clear => ?_, fun role good third raised => ?_, rfl, rfl, fun yes third => ?_,
        fun yes third => ?_, rfl, fun third => ?_⟩
      · rw [runs.1, smoke, if_neg role]
        rfl
      · rw [runs.1, smokeOf role]
        exact smokeRun
      · refine (answered smokeFault nofun).1 ?_
        rw [Mu.smokeAsks, smokeOf role]
        exact smokeRaises bad third clear
      · refine (answered smokeFault nofun).2 ?_
        rw [Mu.smokeAsks, smokeOf role]
        exact smokeClears good third raised
      · rw [runs.2, heat, if_neg fun detector => detector.elim role other]
        rfl
      · rw [runs.2, heatOf role]
        exact heatRun
      · refine (answered heatFault nofun).1 ?_
        rw [Mu.heatAsks, heatOf role]
        exact heatRaises bad third clear
      · refine (answered heatFault nofun).2 ?_
        rw [Mu.heatAsks, heatOf role]
        exact heatClears good third raised
      · exact (answered battery nofun).1 (if_pos ⟨yes, third⟩)
      · refine (answered battery nofun).2 ?_
        have past : ¬ (v.toNat < c.lowBattery ∧ s.sv.below = 2) := fun k => by
          have : c.lowBattery + 25 < v.toNat := yes
          omega
        exact (if_neg past).trans (if_pos ⟨yes, third⟩)
      · exact (answered stall nofun).2 (if_pos third)
    · rw [State.finish_sc, State.finish_sv]
      exact handed.sc noLearn noTest
    · obtain ⟨reading, attempts, read, frameSc, guard, items⟩ := handed.test test
      rw [State.finish_sv, State.finish_sc, State.finish_guards, State.finish_ev]
      refine ⟨reading, attempts, read, frameSc, guard, ?_⟩
      have judged (k : Nat) (mem : k ∈ scanItems c.role) {passes : Prop}
          (h : itemPasses c.lowBattery u.ev set k = true ↔ passes) :
          (passes → ¬ (State.finish s u).FaultActive .selfTest (itemSubject c.address k)) ∧
          (¬ passes → (State.finish s u).FaultActive .selfTest (itemSubject c.address k) ∨
            (State.finish s u).faults.storageLoss = true) := by
        have stands := items keys k (by rw [cfg]; exact mem)
        rw [cfg] at stands
        rw [State.finish_faultActive, State.finish_faults]
        exact ⟨fun yes => stands.2 (if_pos (h.2 yes)), fun no => stands.1 (if_neg (mt h.1 no))⟩
      intro within item
      have heatItem (role : c.role = .multi ∨ c.role = .heat) : 4 ∈ scanItems c.role := by
        rcases role with role | role <;> rw [role] <;> decide
      refine ⟨fun role => ?_, fun role => ?_, fun role => ?_, fun role => ?_, fun _ => ?_⟩
      · refine judged 1 (by rw [role]; decide) ?_
        rw [itemPasses, smokeOf role]
        exact decide_eq_true_iff
      · refine judged 2 (by rw [role]; decide) ?_
        rw [itemPasses, smokeOf role, Option.any_some, Bool.or_eq_true]
        exact or_congr_right decide_eq_true_iff
      · refine judged 3 (by rw [role]; decide) ?_
        rw [itemPasses, smokeOf role, Option.any_some, Bool.or_eq_true]
        exact or_congr_right decide_eq_true_iff
      · refine judged 4 (heatItem role) ?_
        rw [itemPasses, heatOf role]
        exact decide_eq_true_iff
      · refine judged 5 (by cases c.role <;> decide) ?_
        rw [itemPasses, supply]
        exact decide_eq_true_iff

end Sys2Proof.Machine
end

section
/-! SUPPORT. The frame pool and its holders in the middle of an event (R109, R110, R112): what each holder asks of the buffer
it has, and what moves a buffer from one holder to another. -/
namespace Sys2Proof.Machine

/-! ## A pool and the claims on it -/

/-- A buffer, and what its holder asks of its contents. -/
abbrev Claim := Fin 8 × (Buffer → Prop)

/-- The pool backs the claims: no two are on one buffer, each buffer claimed is taken and as its claim asks, and every other
buffer is FREE and empty. -/
structure Pool.Backs (p : Pool) (l : List Claim) : Prop where
  onePlace : (l.map (·.1)).Nodup
  kept : ∀ c ∈ l, (p.get c.1).state ≠ .free ∧ c.2 (p.get c.1)
  free : ∀ b, b ∉ l.map (·.1) → p.get b = .empty

/-- Buffers change holders, and the new holders ask what the buffers give. -/
theorem Pool.Backs.change {p : Pool} {l m : List Claim} (h : p.Backs l) (same : (m.map (·.1)).Perm (l.map (·.1)))
    (kept : ∀ c ∈ m, c.2 (p.get c.1)) : p.Backs m where
  onePlace := same.nodup_iff.2 h.onePlace
  kept := fun c hc => by
    obtain ⟨d, hd, eq⟩ := List.mem_map.1 (same.mem_iff.1 (List.mem_map_of_mem hc))
    exact ⟨eq ▸ (h.kept d hd).1, kept c hc⟩
  free := fun b hb => h.free b fun hm => hb (same.mem_iff.2 hm)

theorem Pool.Backs.perm {p : Pool} {l m : List Claim} (h : p.Backs l) (same : m.Perm l) : p.Backs m :=
  h.change (same.map _) fun c hc => (h.kept c (same.mem_iff.1 hc)).2

/-- The busy flag is no part of what backs a claim. -/
theorem Pool.Backs.of_bufs {p q : Pool} {l : List Claim} (h : p.Backs l) (same : q.bufs = p.bufs) : q.Backs l := by
  have get : ∀ b, q.get b = p.get b := fun b => by rw [Pool.get, Pool.get, same]
  exact ⟨h.onePlace, fun c hc => get c.1 ▸ h.kept c hc, fun b hb => (get b).trans (h.free b hb)⟩

/-- A buffer is replaced for its holder. -/
theorem Pool.Backs.put {p : Pool} {b : Fin 8} {P Q : Buffer → Prop} {l : List Claim} (h : p.Backs ((b, P) :: l)) {x : Buffer}
    (taken : x.state ≠ .free) (asked : Q x) : (p.put b x).Backs ((b, Q) :: l) := by
  obtain ⟨apart, -⟩ := List.nodup_cons.1 h.onePlace
  refine ⟨h.onePlace, fun c hc => ?_, fun a ha => ?_⟩
  · rw [Pool.get_put]
    obtain rfl | hc := List.mem_cons.1 hc
    · rw [if_pos rfl]
      exact ⟨taken, asked⟩
    · rw [if_neg fun eq : c.1 = b => apart (eq ▸ List.mem_map_of_mem (f := (·.1)) hc)]
      exact h.kept c (List.mem_cons_of_mem _ hc)
  · rw [Pool.get_put, if_neg fun eq : a = b => ha (eq ▸ List.mem_cons_self)]
    exact h.free a ha

/-- A FREE buffer is claimed. -/
theorem Pool.Backs.claim {p : Pool} {b : Fin 8} {Q : Buffer → Prop} {l : List Claim} (h : p.Backs l)
    (free : (p.get b).state = .free) {x : Buffer} (taken : x.state ≠ .free) (asked : Q x) :
    (p.put b x).Backs ((b, Q) :: l) := by
  have apart : b ∉ l.map (·.1) := fun hm => by
    obtain ⟨c, hc, rfl⟩ := List.mem_map.1 hm
    exact (h.kept c hc).1 free
  refine ⟨List.nodup_cons.2 ⟨apart, h.onePlace⟩, fun c hc => ?_, fun a ha => ?_⟩
  · rw [Pool.get_put]
    obtain rfl | hc := List.mem_cons.1 hc
    · rw [if_pos rfl]
      exact ⟨taken, asked⟩
    · rw [if_neg fun eq : c.1 = b => apart (eq ▸ List.mem_map_of_mem (f := (·.1)) hc)]
      exact h.kept c hc
  · obtain ⟨other, ha⟩ := not_or.1 (mt List.mem_cons.2 ha)
    rw [Pool.get_put, if_neg other]
    exact h.free a ha

/-- A buffer is freed. -/
theorem Pool.Backs.release {p : Pool} {b : Fin 8} {P : Buffer → Prop} {l : List Claim} (h : p.Backs ((b, P) :: l)) :
    (p.put b .empty).Backs l := by
  obtain ⟨apart, nodup⟩ := List.nodup_cons.1 h.onePlace
  refine ⟨nodup, fun c hc => ?_, fun a ha => ?_⟩
  · rw [Pool.get_put, if_neg fun eq : c.1 = b => apart (eq ▸ List.mem_map_of_mem (f := (·.1)) hc)]
    exact h.kept c (List.mem_cons_of_mem _ hc)
  · rw [Pool.get_put]
    split
    · rfl
    · rename_i other
      exact h.free a fun hm => (List.mem_cons.1 hm).elim other ha

/-- A claimed buffer is not FREE, and every other is. -/
theorem Pool.Backs.free_iff {p : Pool} {l : List Claim} (h : p.Backs l) {b : Fin 8} :
    (p.get b).state = .free ↔ b ∉ l.map (·.1) := by
  refine ⟨fun free hm => ?_, fun hb => by rw [h.free b hb]; rfl⟩
  obtain ⟨c, hc, rfl⟩ := List.mem_map.1 hm
  exact (h.kept c hc).1 free

/-- No more than the eight buffers are claimed. -/
theorem Pool.Backs.length {p : Pool} {l : List Claim} (h : p.Backs l) : l.length ≤ 8 := by
  simpa using h.onePlace.length_le_of_subset fun b _ => List.mem_finRange b

/-! ## The holders -/

/-- A buffer in a state of R109, of a class (R110). -/
def Buffer.Stands (st : BufState) (c : FrameClass) (y : Buffer) : Prop := y.state = st ∧ y.cls = some c

theorem Buffer.Stands.taken {st : BufState} {c : FrameClass} {y : Buffer} (h : y.Stands st c)
    (held : st ≠ .free) :
    y.state ≠ .free := fun free => held (h.1.symm.trans free)

/-- The class an entry's counts tell (R117, R123): a routine entry alone has a deferral count. -/
def TxEntry.cls (x : TxEntry) : FrameClass := if x.deferrals = none then .urgent else .routine

theorem TxEntry.Fits.cls_eq {c : FrameClass} {x : TxEntry} (h : x.Fits c) : x.cls = c := by
  cases c with
  | urgent => exact if_pos h.2
  | routine =>
    obtain ⟨-, n, deferrals, -⟩ := h
    exact if_neg (by rw [deferrals]; nofun)

def TxEntry.queuedClaim (c : FrameClass) (x : TxEntry) : Claim := (x.buf, Buffer.Stands .queued c)

def TxEntry.sendingClaim (x : TxEntry) : Claim := (x.buf, Buffer.Stands .sending x.cls)

def RelayWait.claim (w : RelayWait) : Claim := (w.buf, Buffer.Stands .relayWait w.cls)

def Reception.claim (r : Reception) : Option Claim := r.buf.map fun b =>
  (b, fun y => y.Stands .receiving (classOfKind (Frame.kind y.frame)) ∧ 3 ≤ y.frame.length ∧ r.latch ≠ [])

/-- The claims of the transmit unit: its queues and the frame in progress (R117). -/
def txClaims (urgent routine : List TxEntry) (current : Option TxEntry) : List Claim :=
  urgent.map (·.queuedClaim .urgent) ++ (routine.map (·.queuedClaim .routine) ++ current.toList.map (·.sendingClaim))

/-- The places taken in the queue of a class (R117), the frame in progress counted by its counts' class. -/
def txPlaces (c : FrameClass) (urgent routine : List TxEntry) (current : Option TxEntry) : Nat :=
  (match c with | .urgent => urgent.length | .routine => routine.length) +
    current.toList.countP (fun x => decide (x.cls = c))

/-- The transmit unit's counts and places are within their bounds (R114, R117, R123). -/
structure TxSound (urgent routine : List TxEntry) (current : Option TxEntry) : Prop where
  urgentFits : ∀ x ∈ urgent, x.Fits .urgent
  routineFits : ∀ x ∈ routine, x.Fits .routine
  currentFits : ∀ x ∈ current, x.Fits x.cls
  places : txPlaces .urgent urgent routine current ≤ 4 ∧ txPlaces .routine urgent routine current ≤ 6

/-- The relay waits, the waiters and the seen list agree (R136, R140, R148). -/
structure RelaysSound (waits : List RelayWait) (waiters : List Waiter) (seen : List SeenEntry) : Prop where
  waiters : (waiters.filterMap Waiter.relayBuf).Nodup ∧
    ∀ b, .relay b ∈ waiters → ∃ w ∈ waits, w.buf = b ∧ w.cls = .urgent
  pins : ∀ x ∈ seen, x.pins ≤ waits.countP (fun w => decide (w.origin = x.origin))
  room : seen.length ≤ 24
  keyed : (seen.map (·.origin)).Nodup

/-- The busy flag agrees with the FREE count (R112). -/
def Pool.FlagSettled (p : Pool) : Prop := (p.freeCount ≤ 3 → p.busy = true) ∧ (5 ≤ p.freeCount → p.busy = false)

/-- `State.PoolSound` over its parts, in the middle of an event: the claims of `out` are on buffers that have left their
holder and not yet found another, and the busy flag need agree with the FREE count only where `k` says so. -/
structure Holding (k : Bool) (out : List Claim) (pool : Pool) (urgent routine : List TxEntry) (current : Option TxEntry)
    (radio : Radio) (waits : List RelayWait) (waiters : List Waiter) (seen : List SeenEntry) : Prop where
  backs : pool.Backs (out ++ (txClaims urgent routine current ++ (waits.map RelayWait.claim ++ (radio.reception.bind Reception.claim).toList)))
  tu : TxSound urgent routine current
  radio : radio.ReceivesSoundly
  relays : RelaysSound waits waiters seen
  flag : k = true → pool.FlagSettled

/-- `Holding` of a state's parts. It looks at no other part of the state. -/
def State.Sound (k : Bool) (out : List Claim) (s : State) : Prop :=
  Holding k out s.pool s.tu.urgent s.tu.routine s.tu.current s.radio s.fu.relayWaits s.fu.waiters s.fu.seen

theorem State.placesTaken_eq {c : FrameClass} {s : State} (current : ∀ x ∈ s.tu.current, (s.buf x.buf).cls = some x.cls) :
    s.placesTaken c = txPlaces c s.tu.urgent s.tu.routine s.tu.current := by
  unfold State.placesTaken txPlaces
  congr 1
  cases standing : s.tu.current with
  | none => simp [State.currentIs, State.currentClass, standing]
  | some x => simp [State.currentIs_of standing, current x standing, List.countP_cons]

/-- The claims of a state, spelt as the obligation spells the buffers that have a holder. -/
theorem State.heldBufs_perm (s : State) : s.heldBufs.Perm ((txClaims s.tu.urgent s.tu.routine s.tu.current ++
    (s.fu.relayWaits.map RelayWait.claim ++ (s.radio.reception.bind Reception.claim).toList)).map (·.1)) := by
  have reception : (s.radio.reception.bind (·.buf)).toList = ((s.radio.reception.bind Reception.claim).toList).map (·.1) := by
    cases s.radio.reception with
    | none => rfl
    | some r =>
      obtain ⟨level, latch, buf, refused, bodyLen⟩ := r
      cases buf <;> rfl
  rw [State.heldBufs, reception]
  simp only [txClaims, List.map_append, List.map_map, List.append_assoc]
  exact .refl _

/-- Between events no buffer is out and the flag agrees. -/
theorem State.poolSound_iff {s : State} : s.PoolSound ↔ s.Sound true [] := by
  constructor
  · intro h
    have current : ∀ x ∈ s.tu.current, x.Fits x.cls ∧ (s.buf x.buf).state = .sending ∧ (s.buf x.buf).cls = some x.cls := by
      intro x hx
      obtain ⟨c, holds, fits⟩ := h.current x hx
      rw [fits.cls_eq]
      exact ⟨fits, holds.1, holds.2⟩
    refine ⟨⟨s.heldBufs_perm.nodup_iff.1 h.onePlace, fun c hc => ?_, fun b hb =>
      h.free b fun hm => hb (s.heldBufs_perm.mem_iff.1 hm)⟩, ⟨fun x hx => (h.urgent x hx).2, fun x hx => (h.routine x hx).2,
        fun x hx => (current x hx).1, ?_⟩, h.radio, ⟨h.waiters, h.pins, h.seen, h.seenKeyed⟩, fun _ => h.busy⟩
    · simp only [List.nil_append, txClaims, List.mem_append, List.mem_map, Option.mem_toList] at hc
      obtain (⟨x, hx, rfl⟩ | ⟨x, hx, rfl⟩ | ⟨x, hx, rfl⟩) | ⟨w, hw, rfl⟩ | hr := hc
      · have holds := (h.urgent x hx).1
        exact ⟨Buffer.Stands.taken holds nofun, holds⟩
      · have holds := (h.routine x hx).1
        exact ⟨Buffer.Stands.taken holds nofun, holds⟩
      · obtain ⟨-, state, cls⟩ := current x hx
        exact ⟨Buffer.Stands.taken ⟨state, cls⟩ nofun, state, cls⟩
      · have holds := h.waits w hw
        exact ⟨Buffer.Stands.taken holds nofun, holds⟩
      · obtain ⟨r, standing, claim⟩ := Option.bind_eq_some_iff.1 hr
        obtain ⟨b, hb, rfl⟩ := Option.map_eq_some_iff.1 claim
        have holds := h.reception r standing b hb
        exact ⟨Buffer.Stands.taken holds.1 nofun, holds⟩
    · rw [← State.placesTaken_eq fun x hx => (current x hx).2.2, ← State.placesTaken_eq fun x hx => (current x hx).2.2]
      exact h.places
  · intro h
    have kept : ∀ c ∈ txClaims s.tu.urgent s.tu.routine s.tu.current ++
        (s.fu.relayWaits.map RelayWait.claim ++ (s.radio.reception.bind Reception.claim).toList), c.2 (s.buf c.1) := fun c hc => (h.backs.kept c hc).2
    simp only [txClaims, List.mem_append, List.mem_map, Option.mem_toList] at kept
    have current : ∀ x ∈ s.tu.current, (s.buf x.buf).Stands .sending x.cls := fun x hx =>
      kept x.sendingClaim (.inl (.inr (.inr ⟨x, hx, rfl⟩)))
    refine ⟨s.heldBufs_perm.nodup_iff.2 h.backs.onePlace,
      fun x hx => ⟨kept (x.queuedClaim .urgent) (.inl (.inl ⟨x, hx, rfl⟩)), h.tu.urgentFits x hx⟩,
      fun x hx => ⟨kept (x.queuedClaim .routine) (.inl (.inr (.inl ⟨x, hx, rfl⟩))), h.tu.routineFits x hx⟩,
      fun x hx => ⟨x.cls, current x hx, h.tu.currentFits x hx⟩,
      fun w hw => kept w.claim (.inr (.inl ⟨w, hw, rfl⟩)), fun r hr b hb => ?_, h.radio,
      fun b hb => h.backs.free b fun hm => hb (s.heldBufs_perm.mem_iff.2 hm), h.flag rfl, ?_, h.relays.waiters,
      h.relays.pins, h.relays.room, h.relays.keyed⟩
    · exact kept (b, fun y => y.Stands .receiving (classOfKind (Frame.kind y.frame)) ∧ 3 ≤ y.frame.length ∧ r.latch ≠ [])
        (.inr (.inr (Option.bind_eq_some_iff.2 ⟨r, hr, Option.map_eq_some_iff.2 ⟨b, hb, rfl⟩⟩)))
    · rw [State.placesTaken_eq fun x hx => (current x hx).2, State.placesTaken_eq fun x hx => (current x hx).2]
      exact h.tu.places

/-! ## What a sound state gives -/

variable {k : Bool} {out : List Claim} {s : State}

/-- A flag that agrees agrees whether asked or not. -/
theorem State.Sound.settled (h : s.Sound true out) : s.Sound k out := { h with flag := fun _ => h.flag rfl }

theorem State.Sound.unsettled (h : s.Sound k out) : s.Sound false out := { h with flag := nofun }

/-- The buffers that are out may change places among themselves, and ask for less. -/
theorem State.Sound.out_change {out' : List Claim} (h : s.Sound k out) (same : (out'.map (·.1)).Perm (out.map (·.1)))
    (kept : ∀ c ∈ out', c.2 (s.buf c.1)) : s.Sound k out' :=
  { h with
    backs := h.backs.change (by rw [List.map_append, List.map_append (l₁ := out)]; exact same.append_right _) fun c hc => by
      rw [List.mem_append] at hc
      exact hc.elim (kept c) fun hc => (h.backs.kept c (List.mem_append_right _ hc)).2 }

theorem State.Sound.out_perm {out' : List Claim} (h : s.Sound k out) (same : out'.Perm out) : s.Sound k out' :=
  h.out_change (same.map _) fun c hc => (h.backs.kept c (List.mem_append_left _ (same.mem_iff.1 hc))).2

/-- A buffer that is out is as its claim asks. -/
theorem State.Sound.out_kept (h : s.Sound k out) {c : Claim} (hc : c ∈ out) : c.2 (s.buf c.1) :=
  (h.backs.kept c (List.mem_append_left _ hc)).2

theorem State.Sound.current_stands (h : s.Sound k out) {x : TxEntry} (hx : s.tu.current = some x) :
    (s.buf x.buf).Stands .sending x.cls :=
  (h.backs.kept x.sendingClaim (by simp [txClaims, hx])).2

theorem State.Sound.wait_stands (h : s.Sound k out) {w : RelayWait} (hw : w ∈ s.fu.relayWaits) :
    (s.buf w.buf).Stands .relayWait w.cls :=
  (h.backs.kept w.claim (by simpa using .inr (.inr (.inl ⟨w, hw, rfl⟩)))).2

theorem State.Sound.currentIs (h : s.Sound k out) {x : TxEntry} (hx : s.tu.current = some x) (c : FrameClass) :
    s.currentIs c = decide (x.cls = c) := by
  rw [State.currentIs_of hx, (h.current_stands hx).2]
  simp

theorem State.Sound.placesTaken (h : s.Sound k out) (c : FrameClass) : s.placesTaken c = txPlaces c s.tu.urgent s.tu.routine s.tu.current :=
  State.placesTaken_eq fun _ hx => (h.current_stands hx).2

/-- There are no more relay waits than buffers. -/
theorem State.Sound.waits_length (h : s.Sound k out) : s.fu.relayWaits.length ≤ 8 := by
  have all := h.backs.length
  simp only [List.length_append, List.length_map] at all
  omega

end Sys2Proof.Machine
end

section
/-! SUPPORT. The offers, selections and originations keep the pool sound (R109, R110, R112, R117 to R119, R126, R137). -/
namespace Sys2Proof.Machine

variable {k : Bool} {out : List Claim} {s : State}

/-! ## Buffers between the transmit unit's holders -/

section
variable {p : Pool} {urgent routine urgent' routine' : List TxEntry} {current current' : Option TxEntry} {radio : Radio}
  {waits : List RelayWait} {waiters : List Waiter} {seen : List SeenEntry} {b : Fin 8} {P Q : Buffer → Prop} {x : Buffer}

theorem Pool.freeCount_put {p : Pool} {b : Fin 8} {x : Buffer} (stood : (p.get b).state ≠ .free) (taken : x.state ≠ .free) :
    (p.put b x).freeCount = p.freeCount := by
  refine List.countP_congr fun c _ => ?_
  rw [Pool.get_put]
  split
  · rename_i eq
    simp [eq, stood, taken]
  · rfl

/-- The busy flag agrees as before where a taken buffer is replaced by a taken one. -/
theorem Pool.FlagSettled.put {p : Pool} {b : Fin 8} {x : Buffer} (h : p.FlagSettled) (stood : (p.get b).state ≠ .free)
    (taken : x.state ≠ .free) : (p.put b x).FlagSettled := by
  rw [Pool.FlagSettled, Pool.freeCount_put stood taken]
  exact h

/-- A buffer that is out is given to the transmit unit. -/
theorem Holding.toTx (h : Holding k ((b, P) :: out) p urgent routine current radio waits waiters seen)
    (taken : x.state ≠ .free) (asked : Q x)
    (same : (txClaims urgent' routine' current').Perm ((b, Q) :: txClaims urgent routine current))
    (sound : TxSound urgent' routine' current') :
    Holding k out (p.put b x) urgent' routine' current' radio waits waiters seen where
  backs := (h.backs.put taken asked).perm
    (((same.append_right _).append_left out).trans List.perm_middle)
  tu := sound
  radio := h.radio
  relays := h.relays
  flag := fun hk => (h.flag hk).put (h.backs.kept _ List.mem_cons_self).1 taken

/-- A buffer of the transmit unit is taken out of it. -/
theorem Holding.ofTx (h : Holding k out p urgent routine current radio waits waiters seen)
    (same : (txClaims urgent routine current).Perm ((b, P) :: txClaims urgent' routine' current'))
    (sound : TxSound urgent' routine' current') :
    Holding k ((b, P) :: out) p urgent' routine' current' radio waits waiters seen :=
  { h with
    backs := h.backs.perm (((same.append_right _).append_left out).trans List.perm_middle).symm
    tu := sound }

/-- A buffer changes its holder within the transmit unit. -/
theorem Holding.withinTx {l : List Claim} (h : Holding k out p urgent routine current radio waits waiters seen)
    (taken : x.state ≠ .free) (asked : Q x) (stood : (txClaims urgent routine current).Perm ((b, P) :: l))
    (same : (txClaims urgent' routine' current').Perm ((b, Q) :: l)) (sound : TxSound urgent' routine' current') :
    Holding k out (p.put b x) urgent' routine' current' radio waits waiters seen := by
  have front : ∀ {t : List Claim} {c : Claim}, t.Perm (c :: l) → ∀ r, (out ++ (t ++ r)).Perm (c :: (out ++ (l ++ r))) :=
    fun same r => ((same.append_right r).append_left out).trans List.perm_middle
  have stands := h.backs.perm (front stood _).symm
  exact { h with
    backs := (stands.put taken asked).perm (front same _)
    tu := sound
    flag := fun hk => (h.flag hk).put (stands.kept _ List.mem_cons_self).1 taken }

end

/-- A change of the transmit unit's timers and phase. -/
theorem State.Sound.txTimers {tu : Tu} (h : s.Sound k out) (urgent : tu.urgent = s.tu.urgent)
    (routine : tu.routine = s.tu.routine) (current : tu.current = s.tu.current) :
    State.Sound k out { s with tu := tu } := by
  unfold State.Sound
  rw [urgent, routine, current]
  exact h

/-- A change of the radio that leaves the frame being taken. -/
theorem State.Sound.withRadio {r : Radio} (h : s.Sound k out) (same : r.reception = s.radio.reception)
    (sound : r.ReceivesSoundly) : State.Sound k out { s with radio := r } :=
  { h with
    backs := by
      dsimp only
      rw [same]
      exact h.backs
    radio := sound }

/-- With the radio not the receive unit's, no frame is being taken and no delimiter waited for. -/
theorem Radio.ReceivesSoundly.idle {r : Radio} (h : r.ReceivesSoundly) (other : r.rx ≠ .receiving ∨ r.owner ≠ .receiveUnit) :
    r.waitSince = none ∧ r.reception = none := by
  have : ¬ (r.waitSince ≠ none ∨ r.reception ≠ none) := fun busy => other.elim (· (h.1 busy).1) (· (h.1 busy).2)
  rwa [not_or, Classical.not_not, Classical.not_not] at this

theorem Radio.receivesSoundly_of_idle {r : Radio} (wait : r.waitSince = none) (reception : r.reception = none) :
    r.ReceivesSoundly := ⟨fun busy => (busy.elim (· wait) (· reception)).elim, fun _ => reception⟩

/-! ## Operations of the transmit unit -/

theorem State.Sound.count (h : s.Sound k out) (c : Counter) : (s.count c).Sound k out := h

theorem State.Sound.startGuard (h : s.Sound k out) (n : GuardName) (d : Us) : (s.startGuard n d).Sound k out := h

theorem State.Sound.stopGuard (h : s.Sound k out) (n : GuardName) : (s.stopGuard n).Sound k out := h

theorem State.Sound.enterBackoff (h : s.Sound k out) : s.enterBackoff.Sound k out := h

/-- Where nothing is being received the radio may take any other state. -/
theorem State.Sound.radioIdle {r : Radio} (h : s.Sound k out) (other : s.radio.rx ≠ .receiving ∨ s.radio.owner ≠ .receiveUnit)
    (wait : r.waitSince = s.radio.waitSince) (reception : r.reception = s.radio.reception) :
    State.Sound k out { s with radio := r } := by
  obtain ⟨noWait, noReception⟩ := h.radio.idle other
  exact h.withRadio reception (Radio.receivesSoundly_of_idle (wait.trans noWait) (reception.trans noReception))

theorem State.Sound.releaseTu (h : s.Sound k out) : s.releaseTu.Sound k out := by
  unfold State.releaseTu
  split
  · rename_i owner
    exact h.radioIdle (.inr fun eq => nomatch owner.symm.trans eq) rfl rfl
  · exact h

theorem State.Sound.stopOperation (h : s.Sound k out) : s.stopOperation.Sound k out :=
  State.Sound.releaseTu (h.txTimers rfl rfl rfl)

theorem State.Sound.startWatch (h : s.Sound k out) : s.startWatch.Sound k out := by
  unfold State.startWatch
  split
  · split
    · unfold State.Sound
      dsimp only
      cases current : s.tu.current with
      | none => rw [Option.map_none, ← current]; exact h
      | some x =>
        rw [Option.map_some]
        have tu := h.tu
        have backs := h.backs
        rw [current] at tu backs
        exact { h with
          backs := backs
          tu := ⟨tu.urgentFits, tu.routineFits,
            fun y hy => by obtain rfl := Option.mem_some_iff.1 hy; exact tu.currentFits x rfl, tu.places⟩ }
    · split
      · rename_i e rest urgent
        have tu := h.tu
        have backs := h.backs
        rw [urgent] at tu backs
        exact { h with
          backs := backs
          tu := ⟨fun y hy => (List.mem_cons.1 hy).elim (fun eq => eq ▸ tu.urgentFits e List.mem_cons_self)
            fun hy => tu.urgentFits y (List.mem_cons_of_mem _ hy), tu.routineFits, tu.currentFits, tu.places⟩ }
      · exact h
  · exact h

/-! ### Counts and places -/

theorem countP_cls_some (x : TxEntry) (c : FrameClass) :
    (some x).toList.countP (fun y => decide (y.cls = c)) = if x.cls = c then 1 else 0 := by
  simp [List.countP_cons]

theorem TxSound.cls_of_mem {c : FrameClass} {x : TxEntry} (fits : x.Fits c) : ∀ y ∈ some x, y.Fits y.cls := fun y hy => by
  obtain rfl := Option.mem_some_iff.1 hy
  rw [fits.cls_eq]
  exact fits

/-- A queue's head in progress takes the place it took in the queue. -/
theorem TxSound.urgent_taken {x : TxEntry} {urgent routine : List TxEntry} :
    TxSound (x :: urgent) routine none ↔ x.Fits .urgent ∧ TxSound urgent routine (some x) := by
  constructor
  · rintro ⟨first, second, -, places⟩
    obtain ⟨fits, first⟩ := List.forall_mem_cons.1 first
    refine ⟨fits, first, second, TxSound.cls_of_mem fits, ?_⟩
    simpa [txPlaces, fits.cls_eq] using places
  · rintro ⟨fits, first, second, -, places⟩
    refine ⟨List.forall_mem_cons.2 ⟨fits, first⟩, second, nofun, ?_⟩
    simpa [txPlaces, fits.cls_eq] using places

theorem TxSound.routine_taken {x : TxEntry} {urgent routine : List TxEntry} :
    TxSound urgent (x :: routine) none ↔ x.Fits .routine ∧ TxSound urgent routine (some x) := by
  constructor
  · rintro ⟨first, second, -, places⟩
    obtain ⟨fits, second⟩ := List.forall_mem_cons.1 second
    refine ⟨fits, first, second, TxSound.cls_of_mem fits, ?_⟩
    simpa [txPlaces, fits.cls_eq] using places
  · rintro ⟨fits, first, second, -, places⟩
    refine ⟨first, List.forall_mem_cons.2 ⟨fits, second⟩, nofun, ?_⟩
    simpa [txPlaces, fits.cls_eq] using places

/-- An entry offered takes a place that is free. -/
theorem TxSound.urgent_offered {x : TxEntry} {urgent routine : List TxEntry} {current : Option TxEntry}
    (h : TxSound urgent routine current) (fits : x.Fits .urgent) (room : txPlaces .urgent urgent routine current < 4) :
    TxSound (urgent ++ [x]) routine current := by
  refine ⟨fun y hy => (List.mem_append.1 hy).elim (h.urgentFits y) fun hy => List.mem_singleton.1 hy ▸ fits, h.routineFits,
    h.currentFits, ?_, h.places.2⟩
  simp only [txPlaces, List.length_append, List.length_singleton] at room ⊢
  omega

theorem TxSound.routine_offered {x : TxEntry} {urgent routine : List TxEntry} {current : Option TxEntry}
    (h : TxSound urgent routine current) (fits : x.Fits .routine) (room : txPlaces .routine urgent routine current < 6) :
    TxSound urgent (routine ++ [x]) current := by
  refine ⟨h.urgentFits, fun y hy => (List.mem_append.1 hy).elim (h.routineFits y) fun hy => List.mem_singleton.1 hy ▸ fits,
    h.currentFits, h.places.1, ?_⟩
  simp only [txPlaces, List.length_append, List.length_singleton] at room ⊢
  omega

/-- The claims with a frame in progress. -/
theorem txClaims_some (urgent routine : List TxEntry) (x : TxEntry) :
    (txClaims urgent routine (some x)).Perm (x.sendingClaim :: txClaims urgent routine none) := by
  simp only [txClaims, Option.toList_some, Option.toList_none, List.map_cons, List.map_nil, List.append_nil, ← List.append_assoc]
  exact List.perm_append_singleton _ _

theorem txClaims_routine_cons (urgent routine : List TxEntry) (x : TxEntry) (current : Option TxEntry) :
    (txClaims urgent (x :: routine) current).Perm (x.queuedClaim .routine :: txClaims urgent routine current) :=
  List.perm_middle

theorem txClaims_urgent_concat (urgent routine : List TxEntry) (x : TxEntry) (current : Option TxEntry) :
    (txClaims (urgent ++ [x]) routine current).Perm (x.queuedClaim .urgent :: txClaims urgent routine current) := by
  rw [txClaims, List.map_append, List.append_assoc]
  exact List.perm_middle

theorem txClaims_routine_concat (urgent routine : List TxEntry) (x : TxEntry) (current : Option TxEntry) :
    (txClaims urgent (routine ++ [x]) current).Perm (x.queuedClaim .routine :: txClaims urgent routine current) := by
  rw [txClaims, List.map_append, List.append_assoc, ← List.append_assoc]
  refine List.perm_middle.trans ?_
  rw [List.append_assoc]
  exact .refl _

/-- The head of a queue becomes the frame in progress (R119). -/
theorem State.Sound.select (h : s.Sound k out) : s.select.Sound k out := by
  have tu := h.tu
  have claimed : ∀ c ∈ txClaims s.tu.urgent s.tu.routine s.tu.current, c.2 (s.buf c.1) := fun c hc =>
    (h.backs.kept c (List.mem_append_right _ (List.mem_append_left _ hc))).2
  unfold State.select
  split
  · rename_i can
    obtain ⟨-, noCurrent, -⟩ := can
    split
    · rename_i e rest queue
      have stood : (txClaims s.tu.urgent s.tu.routine s.tu.current).Perm
          (e.queuedClaim .urgent :: txClaims rest s.tu.routine none) := by rw [queue, noCurrent]; exact .refl _
      have stands := claimed (e.queuedClaim .urgent) (stood.mem_iff.2 List.mem_cons_self)
      rw [queue, noCurrent] at tu
      obtain ⟨fits, taken⟩ := TxSound.urgent_taken.1 tu
      exact Holding.withinTx (P := (e.queuedClaim .urgent).2) h nofun ⟨rfl, fits.cls_eq ▸ stands.2⟩ stood
        (txClaims_some rest s.tu.routine e) taken
    · split
      · rename_i e rest queue
        split
        · exact h
        · have stood : (txClaims s.tu.urgent s.tu.routine s.tu.current).Perm
              (e.queuedClaim .routine :: txClaims s.tu.urgent rest none) := by
            rw [queue, noCurrent]; exact txClaims_routine_cons _ _ _ _
          have stands := claimed (e.queuedClaim .routine) (stood.mem_iff.2 List.mem_cons_self)
          rw [queue, noCurrent] at tu
          obtain ⟨fits, taken⟩ := TxSound.routine_taken.1 tu
          exact Holding.withinTx (P := (e.queuedClaim .routine).2) h nofun ⟨rfl, fits.cls_eq ▸ stands.2⟩ stood
            (txClaims_some s.tu.urgent rest e) taken
      · exact h
  · exact h

/-- The frame in progress goes back to its queue (R114, R117). -/
theorem State.Sound.returnCurrent (h : s.Sound k out) : s.returnCurrent.Sound k out := by
  have tu := h.tu
  unfold State.returnCurrent
  split
  · exact h
  · rename_i e current
    have fits := tu.currentFits e current
    have stands := h.current_stands current
    have stood : (txClaims s.tu.urgent s.tu.routine s.tu.current).Perm
        (e.sendingClaim :: txClaims s.tu.urgent s.tu.routine none) := by rw [current]; exact txClaims_some _ _ _
    rw [current] at tu
    dsimp only
    rw [h.currentIs current]
    cases cls : e.cls with
    | urgent =>
      rw [cls] at fits stands
      exact Holding.withinTx (P := e.sendingClaim.2) (Q := Buffer.Stands .queued .urgent) h nofun ⟨rfl, stands.2⟩ stood
        (.refl _) (TxSound.urgent_taken.2 ⟨fits, tu⟩)
    | routine =>
      rw [cls] at fits stands
      exact Holding.withinTx (P := e.sendingClaim.2) (Q := Buffer.Stands .queued .routine) h nofun ⟨rfl, stands.2⟩ stood
        (txClaims_routine_cons _ _ _ _) (TxSound.routine_taken.2 ⟨fits, tu⟩)

theorem State.Sound.preempt (h : s.Sound k out) : s.preempt.Sound k out := by
  unfold State.preempt
  split
  · exact h.stopOperation.returnCurrent
  · exact h

theorem State.placeFree_iff {c : FrameClass} {s : State} :
    s.placeFree c = true ↔ s.placesTaken c < match c with | .urgent => 4 | .routine => 6 := by
  cases c <;> exact decide_eq_true_iff

/-- An offer for which a place is free takes the buffer that is out (R118). -/
theorem State.Sound.accept {b : Fin 8} {P : Buffer → Prop} {c : FrameClass} (h : s.Sound k ((b, P) :: out))
    (cls : (s.buf b).cls = some c) (place : s.placeFree c = true) (mark : OriginMark) : (s.accept b mark c).Sound k out := by
  have room := State.placeFree_iff.1 place
  rw [h.placesTaken] at room
  cases c with
  | urgent =>
    have queued : (s.queueUrgent b mark).Sound k out :=
      Holding.toTx (Q := Buffer.Stands .queued .urgent) h nofun ⟨rfl, cls⟩ (txClaims_urgent_concat _ _ _ _)
        (h.tu.urgent_offered ⟨Nat.zero_le 2, rfl⟩ room)
    exact queued.preempt.select.startWatch
  | routine =>
    have queued : (s.queueRoutine b mark).Sound k out :=
      Holding.toTx (Q := Buffer.Stands .queued .routine) h nofun ⟨rfl, cls⟩ (txClaims_routine_concat _ _ _ _)
        (h.tu.routine_offered ⟨Nat.zero_le 2, 0, rfl, Nat.zero_le 11⟩ room)
    exact queued.select

end Sys2Proof.Machine
end

section
/-! SUPPORT. Originations, the busy flag's recount, the freeing of buffers and the service of the waiters keep the pool sound
(R109, R112, R136 to R140). -/
namespace Sys2Proof.Machine

variable {k : Bool} {out : List Claim} {s : State}

/-! ## The seen list -/

section
variable {waits : List RelayWait} {waiters : List Waiter} {seen : List SeenEntry}

/-- A least element exists where there is any. -/
theorem leastBy_isSome {α : Type} {lt : α → α → Bool} {l : List α} (h : l ≠ []) : ∃ x, leastBy lt l = some x := by
  cases l with
  | nil => exact absurd rfl h
  | cons x xs =>
    unfold leastBy
    split
    · exact ⟨_, rfl⟩
    · split <;> exact ⟨_, rfl⟩

/-- Entries that are all pinned are no more than the relay waits (R140, R148). -/
theorem RelaysSound.pinned_length (h : RelaysSound waits waiters seen) (pinned : ∀ e ∈ seen, e.pins ≠ 0) :
    seen.length ≤ waits.length := by
  have subset : seen.map (·.origin) ⊆ waits.map (·.origin) := fun a ha => by
    obtain ⟨e, he, rfl⟩ := List.mem_map.1 ha
    have some : 0 < waits.countP (fun w => decide (w.origin = e.origin)) :=
      Nat.lt_of_lt_of_le (Nat.pos_of_ne_zero (pinned e he)) (h.pins e he)
    obtain ⟨w, hw, same⟩ := List.countP_pos_iff.1 some
    exact List.mem_map.2 ⟨w, hw, of_decide_eq_true same⟩
  simpa using h.keyed.length_le_of_subset subset

/-- The seen list with the entries of a sublist alone. -/
theorem RelaysSound.sublist {seen' : List SeenEntry} (h : RelaysSound waits waiters seen) (sub : seen'.Sublist seen) :
    RelaysSound waits waiters seen' where
  waiters := h.waiters
  pins := fun x hx => h.pins x (sub.subset hx)
  room := Nat.le_trans sub.length_le h.room
  keyed := h.keyed.sublist (sub.map _)

/-- Entries changed in place keep origin and pins. -/
theorem RelaysSound.map {f : SeenEntry → SeenEntry} (h : RelaysSound waits waiters seen)
    (origin : ∀ e, (f e).origin = e.origin) (pins : ∀ e, (f e).pins = e.pins) :
    RelaysSound waits waiters (seen.map f) where
  waiters := h.waiters
  pins := fun x hx => by
    obtain ⟨e, he, rfl⟩ := List.mem_map.1 hx
    rw [origin, pins]
    exact h.pins e he
  room := by rw [List.length_map]; exact h.room
  keyed := nodup_map_of_keys (fun a _ => origin a) h.keyed

/-- Room for one entry more is made, where there are fewer than 24 relay waits (R140). -/
theorem RelaysSound.seenRoom (h : RelaysSound waits waiters seen) (few : waits.length ≤ 8) :
    RelaysSound waits waiters (seenRoom seen) ∧ (seenRoom seen).length < 24 := by
  unfold Machine.seenRoom
  split
  · rename_i room
    exact ⟨h, room⟩
  · rename_i full
    have some : seen.filter (fun e => decide (e.pins = 0)) ≠ [] := fun none => by
      have := h.pinned_length fun e he zero => List.filter_eq_nil_iff.1 none e he (decide_eq_true zero)
      omega
    obtain ⟨old, least⟩ := leastBy_isSome (lt := seenBefore) some
    have mem : old ∈ seen := (List.mem_filter.1 (leastBy_mem least)).1
    rw [least]
    refine ⟨h.sublist List.filter_sublist, Nat.lt_of_lt_of_le ?_ h.room⟩
    exact List.length_filter_lt_length_iff_exists.2 ⟨old, mem, by simp⟩

theorem SeenEntry.accept_pins (ms : Ms) (run seq : BitVec 8) (e : SeenEntry) : (e.accept ms run seq).pins = e.pins := by
  unfold SeenEntry.accept
  split
  · rfl
  · split <;> rfl

/-- A look at the seen list keeps it in agreement (R140, R141). -/
theorem RelaysSound.seenTake (h : RelaysSound waits waiters seen) (few : waits.length ≤ 8) (ms : Ms) (origin : Addr)
    (run seq : BitVec 8) : RelaysSound waits waiters (seenTake ms origin run seq seen).2 := by
  have keyed := seenTake_keys (ms := ms) (origin := origin) (run := run) (seq := seq) h.keyed
  have fresh := h.sublist (List.filter_sublist (p := fun e => !e.expired ms))
  revert keyed
  unfold Machine.seenTake
  dsimp only
  split
  · obtain ⟨made, room⟩ := fresh.seenRoom few
    refine fun keyed => ⟨h.waiters, fun x hx => ?_, ?_, keyed⟩
    · obtain hx | hx := List.mem_append.1 hx
      · exact made.pins x hx
      · obtain rfl := List.mem_singleton.1 hx
        exact Nat.zero_le _
    · rw [List.length_append, List.length_singleton]
      exact room
  · split
    · refine fun _ => fresh.map (fun e => ?_) (fun e => ?_)
      · split
        · exact SeenEntry.accept_origin ..
        · rfl
      · split
        · exact SeenEntry.accept_pins ..
        · rfl
    · exact fun _ => fresh

end

/-- The flood unit's record changed, its relay waits standing. -/
theorem State.Sound.withFu {fu : Fu} (h : s.Sound k out) (waits : fu.relayWaits = s.fu.relayWaits)
    (relays : RelaysSound s.fu.relayWaits fu.waiters fu.seen) : State.Sound k out { s with fu := fu } := by
  unfold State.Sound
  rw [waits]
  exact { h with relays := relays }

theorem State.Sound.seenTake (h : s.Sound k out) (ms : Ms) (origin : Addr) (run seq : BitVec 8) :
    State.Sound k out { s with fu := { s.fu with seen := (seenTake ms origin run seq s.fu.seen).2 } } :=
  h.withFu rfl (h.relays.seenTake h.waits_length ms origin run seq)

/-! ## Originations -/

/-- A FREE buffer is filled, and is out; the busy flag is to be recounted. -/
theorem State.Sound.claim {b : Fin 8} {x : Buffer} (h : s.Sound k out) (free : (s.buf b).state = .free)
    (taken : x.state ≠ .free) : (s.setBuf b x).Sound false ((b, (· = x)) :: out) :=
  { h with
    backs := h.backs.claim free taken rfl
    flag := nofun }

theorem State.Sound.recordOwn (h : s.Sound k out) (o : OwnFrame) : (s.recordOwn o).Sound k out := by
  unfold State.recordOwn
  split
  · exact h
  · have taken := h.seenTake s.ms s.cfg.address s.fu.run s.fu.seqCounter
    dsimp only
    split
    · exact taken
    · exact taken

theorem State.Sound.originateBare {o : OwnFrame} {t : State} (h : s.Sound k out) (made : s.originateBare o = some t) :
    t.Sound false out := by
  obtain ⟨⟨-, place⟩, b, free, rfl⟩ := State.originateBare_some made
  have filled := (h.claim free (x := { state := .queued, cls := some o.cls, frame := s.composeOwn o, level := none })
    nofun).recordOwn o
  refine filled.accept ?_ ?_ .own
  · rw [show _ = _ from filled.out_kept List.mem_cons_self]
  · rw [State.placeFree_iff, filled.placesTaken]
    rw [State.placeFree_iff, h.placesTaken] at place
    rw [(State.recordOwn_keeps o _).2]
    exact place

theorem Pool.freeCount_le {p q : Pool} (h : ∀ b, (p.get b).state ≠ .free → (q.get b).state ≠ .free) :
    q.freeCount ≤ p.freeCount :=
  List.countP_mono_left fun b _ free => decide_eq_true (Classical.byContradiction fun taken => h b taken (of_decide_eq_true free))

/-- The busy flag after the recount agrees with the FREE count it was made for (R112). -/
theorem busyAfter_settled (busy : Bool) (p : Pool) :
    Pool.FlagSettled { p with busy := busyAfter busy p.freeCount } := by
  refine ⟨fun few => ?_, fun many => ?_⟩
  · have few : p.freeCount ≤ 3 := few
    show busyAfter busy p.freeCount = true
    rw [busyAfter]
    split <;> simp <;> omega
  · have many : 5 ≤ p.freeCount := many
    show busyAfter busy p.freeCount = false
    rw [busyAfter]
    split <;> simp <;> omega

theorem State.select_busy (s : State) : s.select.pool.busy = s.pool.busy := by
  unfold State.select
  split
  · split
    · rfl
    · split
      · split <;> rfl
      · rfl
  · rfl

theorem State.accept_routine_busy (b : Fin 8) (mark : OriginMark) (s : State) :
    (s.accept b mark .routine).pool.busy = s.pool.busy := State.select_busy (s.queueRoutine b mark)

/-- The recount settles the flag: what a raising of it has claimed leaves fewer FREE still (R112). -/
theorem State.Sound.recount (h : s.Sound k out) : s.recount.Sound true out := by
  have flagged : s.flagged.Sound true out :=
    { h with
      backs := h.backs.of_bufs rfl
      flag := fun _ => busyAfter_settled _ s.pool }
  unfold State.recount
  dsimp only
  split
  · rename_i raised
    obtain ⟨raised, -⟩ := Bool.and_eq_true_iff.1 raised
    unfold State.busyObservation
    split
    · exact flagged
    · cases made : State.originateBare .observation s.flagged with
      | none => exact (congrArg (Option.getD · s.flagged) made).symm ▸ flagged
      | some t =>
        have sound : t.Sound false out := flagged.originateBare made
        have few : s.flagged.pool.freeCount ≤ 4 := by
          refine Classical.byContradiction fun many => ?_
          have lowered : busyAfter s.pool.busy s.pool.freeCount = false := (flagged.flag rfl).2 (by omega)
          rw [lowered] at raised
          cases raised
        have fewer : t.pool.freeCount ≤ s.flagged.pool.freeCount :=
          Pool.freeCount_le fun b taken => ((State.originateBare_keeps made).1 b taken).1
        have busy : t.pool.busy = true := by
          obtain ⟨-, b, -, rfl⟩ := State.originateBare_some made
          exact (State.accept_routine_busy b .own _).trans raised
        have settled : t.pool.FlagSettled := ⟨fun _ => busy, fun many => by omega⟩
        exact (congrArg (Option.getD · s.flagged) made).symm ▸ { sound with flag := fun _ => settled }
  · exact flagged

theorem State.Sound.originate {o : OwnFrame} {t : State} (h : s.Sound k out) (made : s.originate o = some t) :
    t.Sound true out := by
  obtain ⟨u, bare, rfl⟩ := Option.map_eq_some_iff.1 made
  exact (h.originateBare bare).recount

theorem State.Sound.requestObservation (h : s.Sound k out) : s.requestObservation.Sound k out := by
  unfold State.requestObservation
  split
  · exact h
  · cases made : State.originate .observation s with
    | none => exact h
    | some t => exact (h.originate made).settled

theorem mem_relayBufs {l : List Waiter} {b : Fin 8} : b ∈ l.filterMap Waiter.relayBuf ↔ .relay b ∈ l := by
  rw [List.mem_filterMap]
  refine ⟨fun ⟨w, hw, eq⟩ => ?_, fun hb => ⟨_, hb, rfl⟩⟩
  cases w with
  | relay c => exact Option.some.inj eq ▸ hw
  | fire => cases eq
  | silence => cases eq
  | reset => cases eq

/-- A waiter that is no relay copy joins or leaves. -/
theorem RelaysSound.waiters_change {waits : List RelayWait} {waiters waiters' : List Waiter} {seen : List SeenEntry}
    (h : RelaysSound waits waiters seen) (same : waiters'.filterMap Waiter.relayBuf = waiters.filterMap Waiter.relayBuf) :
    RelaysSound waits waiters' seen := by
  exact { h with waiters := ⟨same ▸ h.waiters.1, fun b hb => h.waiters.2 b (mem_relayBufs.1 (same ▸ mem_relayBufs.2 hb))⟩ }

theorem State.Sound.joinWaiters {w : Waiter} (h : s.Sound k out) (own : w.relayBuf = none) :
    (s.joinWaiters w).Sound k out :=
  h.withFu rfl (h.relays.waiters_change (by rw [List.filterMap_append, List.filterMap_cons, own]; simp))

/-- A waiter that is no relay copy is not what makes up the relay copies among the waiters. -/
theorem filterMap_erase_own {w : Waiter} (own : w.relayBuf = none) (l : List Waiter) :
    (l.erase w).filterMap Waiter.relayBuf = l.filterMap Waiter.relayBuf := by
  induction l with
  | nil => rfl
  | cons x l ih =>
    rw [List.erase_cons]
    split
    · rename_i eq
      rw [List.filterMap_cons, eq_of_beq eq, own]
    · rw [List.filterMap_cons, List.filterMap_cons, ih]

theorem State.Sound.dropWaiter {w : Waiter} (h : s.Sound k out) (own : w.relayBuf = none) : (s.dropWaiter w).Sound k out :=
  h.withFu rfl (h.relays.waiters_change (filterMap_erase_own own _))

theorem filterMap_filter_own {p : Waiter → Bool} (relays : ∀ b, p (.relay b) = true) (l : List Waiter) :
    (l.filter p).filterMap Waiter.relayBuf = l.filterMap Waiter.relayBuf := by
  induction l with
  | nil => rfl
  | cons x l ih =>
    rw [List.filter_cons]
    cases x with
    | relay b => rw [if_pos (relays b), List.filterMap_cons, List.filterMap_cons, ih]
    | fire => split <;> simpa [List.filterMap_cons, Waiter.relayBuf] using ih
    | silence => split <;> simpa [List.filterMap_cons, Waiter.relayBuf] using ih
    | reset => split <;> simpa [List.filterMap_cons, Waiter.relayBuf] using ih

theorem State.Sound.filterWaiters {p : Waiter → Bool} (h : s.Sound k out) (relays : ∀ b, p (.relay b) = true) :
    State.Sound k out { s with fu := { s.fu with waiters := s.fu.waiters.filter p } } :=
  h.withFu rfl (h.relays.waiters_change (filterMap_filter_own relays _))

/-! ## Requests -/

theorem State.Sound.askFire (h : s.Sound k out) (c : FireCause) (e : Nat) : (s.askFire c e).Sound k out := by
  unfold State.askFire
  split
  · rename_i t made
    exact (h.originate made).settled
  · split
    · exact h
    · exact h.joinWaiters rfl

theorem State.Sound.askSilence (h : s.Sound k out) : s.askSilence.Sound k out := by
  unfold State.askSilence
  split
  · rename_i t made
    exact (h.originate made).settled
  · split
    · exact h
    · exact h.joinWaiters rfl

theorem State.Sound.askReset (h : s.Sound k out) : s.askReset.Sound k out := by
  unfold State.askReset
  split
  · rename_i t made
    exact (h.originate made).settled
  · exact (h.filterWaiters fun _ => rfl).joinWaiters rfl

theorem State.Sound.askProfile (h : s.Sound k out) (p : Profile) : (s.askProfile p).Sound k out := by
  unfold State.askProfile
  split
  · rename_i t made
    exact (h.originate made).settled
  · exact h

theorem State.Sound.askHealth (h : s.Sound k out) : s.askHealth.Sound k out := by
  unfold State.askHealth
  split
  · rename_i t made
    exact (h.originate made).settled
  · exact h

theorem State.Sound.look (h : s.Sound k out) : s.look.Sound k out := by
  unfold State.look
  split
  · exact h
  · split
    · rename_i t made
      have sound : t.Sound k out := (h.originate made).settled
      exact sound
    · split
      · exact h
      · exact h

theorem State.Sound.panelRecord (h : s.Sound k out) (type : RecordType) (origin : Addr) (zone code detail : Byte) :
    (s.panelRecord type origin zone code detail).Sound k out := by
  rw [State.panelRecord_eq]
  exact h

theorem State.Sound.raise (h : s.Sound k out) (c : FaultCode) (a : Addr) : (s.raise c a).Sound k out := by
  have stored : State.Sound k out { s with faults := (s.faults.raise c a s.ms).2 } := h
  unfold State.raise
  dsimp only
  split
  · exact (stored.panelRecord ..).look
  · exact stored

theorem State.Sound.clear (h : s.Sound k out) (c : FaultCode) (a : Addr) : (s.clear c a).Sound k out := by
  have stored : State.Sound k out { s with faults := (s.faults.clear c a).2 } := h
  unfold State.clear
  dsimp only
  split
  · exact (stored.panelRecord ..).look
  · exact stored

theorem State.Sound.raiseOwn (h : s.Sound k out) (c : FaultCode) : (s.raiseOwn c).Sound k out := h.raise c _

theorem State.Sound.clearOwn (h : s.Sound k out) (c : FaultCode) : (s.clearOwn c).Sound k out := h.clear c _

/-! ## Relay waits -/

/-- Another relay wait's record, waiter and pin are left where one is removed (R139, R148). -/
theorem RelaysSound.drop {waits waits' : List RelayWait} {waiters : List Waiter} {seen : List SeenEntry} {b : Fin 8}
    {w : RelayWait} (h : RelaysSound waits waiters seen) (perm : waits.Perm (w :: waits')) (buf : w.buf = b) :
    RelaysSound waits' (waiters.erase (.relay b)) (seenUnpin w.origin seen) where
  waiters := by
    refine ⟨h.waiters.1.sublist (List.erase_sublist.filterMap _), fun c hc => ?_⟩
    have mem := List.mem_of_mem_erase hc
    obtain ⟨v, hv, same, cls⟩ := h.waiters.2 c mem
    obtain rfl | hv := List.mem_cons.1 (perm.mem_iff.1 hv)
    · obtain rfl : c = b := same.symm.trans buf
      have once := ((List.perm_cons_erase mem).filterMap Waiter.relayBuf).nodup_iff.1 h.waiters.1
      exact absurd (mem_relayBufs.2 hc) (List.nodup_cons.1 once).1
    · exact ⟨v, hv, same, cls⟩
  pins := fun x hx => by
    obtain ⟨e, he, rfl⟩ := List.mem_map.1 hx
    have pins := h.pins e he
    rw [perm.countP_eq, List.countP_cons] at pins
    split
    · rename_i own
      rw [if_pos (decide_eq_true own.symm)] at pins
      exact Nat.sub_le_of_le_add pins
    · rename_i other
      rwa [if_neg (by simpa using Ne.symm other)] at pins
  room := by
    rw [seenUnpin, List.length_map]
    exact h.room
  keyed := seenUnpin_keys h.keyed

/-- A relay wait record removed puts its buffer out: its waiter and its pin go with it (R139, R149, R150). -/
theorem State.Sound.dropRelayWait {b : Fin 8} {w : RelayWait} (h : s.Sound k out) (found : s.relayWaitOf b = some w) :
    (s.dropRelayWait b).Sound k ((b, Buffer.Stands .relayWait w.cls) :: out) := by
  have mem : w ∈ s.fu.relayWaits := List.mem_of_find?_eq_some found
  have buf : w.buf = b := by simpa using List.find?_some found
  have apart : (s.fu.relayWaits.map (·.buf)).Nodup := by
    have all := h.backs.onePlace
    rw [List.map_append, List.map_append, List.map_append] at all
    have := ((List.nodup_append.1 (List.nodup_append.1 (List.nodup_append.1 all).2.1).2.1)).1
    rwa [List.map_map] at this
  have left : s.fu.relayWaits.filter (fun x => decide (x.buf ≠ b)) = s.fu.relayWaits.erase w := by
    rw [← filter_key_eq_erase apart mem (fun x => decide (x.buf = b)) fun x => by rw [decide_eq_true_iff, buf]]
    simp only [decide_not]
  have perm := left ▸ List.perm_cons_erase mem
  unfold State.dropRelayWait
  rw [found]
  dsimp only
  refine { h with backs := h.backs.perm ?_, relays := h.relays.drop perm buf }
  have waits := perm.map RelayWait.claim
  rw [List.map_cons, show w.claim = (b, Buffer.Stands .relayWait w.cls) by rw [RelayWait.claim, buf]] at waits
  refine List.Perm.trans ?_ (((waits.append_right _).append_left _).append_left out).symm
  exact (List.perm_middle.append_left out).trans List.perm_middle |>.symm

end Sys2Proof.Machine
end

section
/-! SUPPORT. The freeing of buffers with the service of the waiters, and what frees them, keep the pool sound (R109, R112, R113,
R123, R127, R131, R136, R139, R146 to R150). -/
namespace Sys2Proof.Machine

variable {k : Bool} {out : List Claim} {s : State}

/-! ## Serving the waiters -/

/-- A waiting relay copy has its relay wait, whose buffer is of the urgent class. -/
theorem State.Sound.waiting {b : Fin 8} (h : s.Sound k out) (waits : .relay b ∈ s.fu.waiters) :
    ∃ w, s.relayWaitOf b = some w ∧ (s.buf b).cls = some .urgent := by
  obtain ⟨w, mem, rfl, cls⟩ := h.relays.waiters.2 b waits
  obtain ⟨v, found⟩ := Option.isSome_iff_exists.1 (List.find?_isSome (xs := s.fu.relayWaits)
    (p := fun v => decide (v.buf = w.buf)) |>.2 ⟨w, mem, decide_eq_true rfl⟩)
  exact ⟨v, found, cls ▸ (h.wait_stands mem).2⟩

theorem State.dropRelayWait_of {b : Fin 8} {w : RelayWait} (found : s.relayWaitOf b = some w) : s.dropRelayWait b =
    { s with fu := { s.fu with
        relayWaits := s.fu.relayWaits.filter (fun x => decide (x.buf ≠ b))
        waiters := s.fu.waiters.erase (.relay b)
        seen := seenUnpin w.origin s.fu.seen } } := by
  rw [State.dropRelayWait, found]

/-- A relay copy is offered a place that is free. -/
theorem State.Sound.relayAccepted {b : Fin 8} {w : RelayWait} {c : FrameClass} (h : s.Sound k out)
    (found : s.relayWaitOf b = some w) (cls : (s.buf b).cls = some c) (place : s.placeFree c = true) :
    ((s.dropRelayWait b).accept b .relay c).Sound k out := by
  have dropped := h.dropRelayWait found
  refine dropped.accept ?_ ?_ .relay
  · rw [State.dropRelayWait_of found]
    exact cls
  · rw [State.placeFree_iff, dropped.placesTaken, State.dropRelayWait_of found]
    rw [State.placeFree_iff, h.placesTaken] at place
    exact place

/-- An own urgent waiter is tried (R139). -/
theorem State.Sound.serveOwn {w : Waiter} {o : OwnFrame} (h : s.Sound k out) (own : w.relayBuf = none) :
    State.Sound k out (match s.originate o with
      | some t => t.dropWaiter w
      | none => s) := by
  split
  · rename_i t made
    exact State.Sound.settled ((h.originate made).dropWaiter own)
  · exact h

theorem State.Sound.serveOne {w : Waiter} (h : s.Sound k out) (waits : w ∈ s.fu.waiters) : (s.serveOne w).Sound k out := by
  cases w with
  | relay b =>
    unfold State.serveOne
    dsimp only
    split
    · rename_i place
      obtain ⟨v, found, cls⟩ := h.waiting waits
      exact h.relayAccepted found cls place
    · exact h
  | fire c e => exact h.serveOwn rfl
  | silence => exact h.serveOwn rfl
  | reset e => exact h.serveOwn rfl

theorem State.originate_waiters {o : OwnFrame} {t : State} (made : s.originate o = some t) :
    t.fu.waiters = s.fu.waiters ∧ t.fu.relayWaits = s.fu.relayWaits := by
  rw [State.originate_fu made]
  unfold State.recordOwn
  split
  · exact ⟨rfl, rfl⟩
  · dsimp only
    split <;> exact ⟨rfl, rfl⟩

/-- Serving one waiter leaves the others among the waiters. -/
theorem State.serveOne_waiters {w v : Waiter} (other : v ≠ w) (waits : v ∈ s.fu.waiters) :
    v ∈ (s.serveOne w).fu.waiters := by
  have erased : v ∈ s.fu.waiters.erase w := (List.mem_erase_of_ne other).2 waits
  have own : ∀ o, v ∈ (match s.originate o with | some t => t.dropWaiter w | none => s).fu.waiters := fun o => by
    split
    · rename_i t made
      show v ∈ t.fu.waiters.erase w
      rw [(State.originate_waiters made).1]
      exact erased
    · exact waits
  cases w with
  | relay b =>
    unfold State.serveOne
    dsimp only
    split
    · rw [(State.accept_offers b .relay .urgent _).fu]
      unfold State.dropRelayWait
      split
      · exact erased
      · exact waits
    · exact waits
  | fire c e => exact own _
  | silence => exact own _
  | reset e => exact own _

/-- The waiters are served one after another, each in its place among them still. -/
theorem State.Sound.serveAll {l : List Waiter} (h : s.Sound k out) (apart : (l.filterMap Waiter.relayBuf).Nodup)
    (waits : ∀ b, .relay b ∈ l → .relay b ∈ s.fu.waiters) : (l.foldl State.serveOne s).Sound k out := by
  induction l generalizing s with
  | nil => exact h
  | cons w l ih =>
    cases w with
    | relay b =>
      obtain ⟨gone, apart⟩ := List.nodup_cons.1 apart
      refine ih (h.serveOne (waits b List.mem_cons_self)) apart fun c hc => ?_
      have other : c ≠ b := fun eq => gone (mem_relayBufs.2 (eq ▸ hc))
      exact State.serveOne_waiters (fun eq => other (Waiter.relay.inj eq)) (waits c (List.mem_cons_of_mem _ hc))
    | fire c e =>
      exact ih (h.serveOwn rfl) apart fun b hb => State.serveOne_waiters nofun (waits b (List.mem_cons_of_mem _ hb))
    | silence =>
      exact ih (h.serveOwn rfl) apart fun b hb => State.serveOne_waiters nofun (waits b (List.mem_cons_of_mem _ hb))
    | reset e =>
      exact ih (h.serveOwn rfl) apart fun b hb => State.serveOne_waiters nofun (waits b (List.mem_cons_of_mem _ hb))

theorem State.Sound.serveProfile (h : s.Sound k out) : s.serveProfile.Sound k out := by
  unfold State.serveProfile
  split
  · split
    · rename_i t made
      have sound : t.Sound k out := (h.originate made).settled
      exact sound
    · exact h
  · exact h

theorem State.Sound.serveHealth (h : s.Sound k out) : s.serveHealth.Sound k out := by
  unfold State.serveHealth
  split
  · split
    · rename_i t made
      have sound : t.Sound k out := (h.originate made).settled
      exact sound
    · exact h
  · exact h

theorem State.Sound.serveWaiters (h : s.Sound k out) : s.serveWaiters.Sound k out :=
  (h.serveAll h.relays.waiters.1 fun _ => id).serveProfile.serveHealth

/-! ## Freeing buffers -/

theorem State.Sound.freeBuf {b : Fin 8} {P : Buffer → Prop} (h : s.Sound k ((b, P) :: out)) :
    (s.freeBuf b).Sound true out :=
  State.Sound.recount (k := false) (s := s.setBuf b .empty)
    { h with
      backs := h.backs.release
      flag := nofun }

theorem State.Sound.freeBufs {l : List Claim} (h : s.Sound k (l ++ out)) :
    ((l.map (·.1)).foldl (fun t b => t.freeBuf b) s).Sound k out := by
  induction l generalizing s with
  | nil => exact h
  | cons c l ih => exact ih h.freeBuf.settled

/-- The buffers that are out are freed (R109, R139). -/
theorem State.Sound.freeAll {l : List Claim} {bs : List (Fin 8)} (h : s.Sound k (l ++ out)) (bufs : l.map (·.1) = bs) :
    (s.freeAll bs).Sound k out := by
  unfold State.freeAll
  split
  · obtain rfl := List.map_eq_nil_iff.1 bufs
    exact h
  · exact (bufs ▸ h.freeBufs).serveWaiters

theorem State.Sound.freeOne {b : Fin 8} {P : Buffer → Prop} (h : s.Sound k ((b, P) :: out)) : (s.freeAll [b]).Sound k out :=
  State.Sound.freeAll (l := [(b, P)]) h rfl

/-! ## The frame in progress leaves -/

/-- The transmit unit without its frame in progress, whose buffer is out. -/
theorem State.Sound.takeCurrent {x : TxEntry} {tu : Tu} (h : s.Sound k out) (current : s.tu.current = some x)
    (urgent : tu.urgent = s.tu.urgent) (routine : tu.routine = s.tu.routine) (gone : tu.current = none) :
    State.Sound k (x.sendingClaim :: out) { s with tu := tu } := by
  have sound := h.tu
  have claims := txClaims_some s.tu.urgent s.tu.routine x
  rw [← current] at claims
  unfold State.Sound
  dsimp only
  rw [urgent, routine, gone]
  refine Holding.ofTx (P := x.sendingClaim.2) h claims ⟨sound.urgentFits, sound.routineFits, nofun, ?_⟩
  obtain ⟨first, second⟩ := sound.places
  exact ⟨Nat.le_trans (Nat.add_le_add_left (Nat.zero_le _) _) first, Nat.le_trans (Nat.add_le_add_left (Nat.zero_le _) _) second⟩

theorem State.Sound.tellUnsent (h : s.Sound k out) (b : Bool) : (s.tellUnsent b).Sound k out := by
  unfold State.tellUnsent
  split
  · exact State.Sound.look (s := { s with faults := s.faults.unsent }) h
  · exact h

theorem State.Sound.faultBodyEnded (h : s.Sound k out) : s.faultBodyEnded.Sound k out :=
  State.Sound.look (s := { s with faults := s.faults.bodyEnded }) h

/-- The transmit unit gives the frame in progress up, whatever its counts have become (R123). -/
theorem State.Sound.abandon {x y : TxEntry} (h : s.Sound k out) (current : s.tu.current = some x) (buf : y.buf = x.buf)
    (cur : Option TxEntry) : (State.abandon y { s with tu := { s.tu with current := cur } }).Sound k out := by
  have taken := h.takeCurrent (tu := { s.tu with current := none, phase := .idle, backoff := none, waiting := false }) current
    rfl rfl rfl
  have freed := State.Sound.freeOne (taken.count .txAbandoned)
  rw [← buf] at freed
  exact (freed.tellUnsent _).select

/-- The frame in progress has its counts changed, within their bounds. -/
theorem State.Sound.recountCurrent {x y : TxEntry} (h : s.Sound k out) (current : s.tu.current = some x) (buf : y.buf = x.buf)
    (fits : y.Fits x.cls) : State.Sound k out { s with tu := { s.tu with current := some y } } := by
  have sound := h.tu
  have backs := h.backs
  rw [current] at sound backs
  have cls := fits.cls_eq
  have same : y.sendingClaim = x.sendingClaim := by rw [TxEntry.sendingClaim, TxEntry.sendingClaim, buf, cls]
  refine { h with backs := ?_, tu := ⟨sound.urgentFits, sound.routineFits, TxSound.cls_of_mem (cls.symm ▸ fits), ?_⟩ }
  · simp only [txClaims, Option.toList_some, List.map_cons, List.map_nil, same] at backs ⊢
    exact backs
  · have places := sound.places
    simp only [txPlaces, countP_cls_some, cls] at places ⊢
    exact places

theorem State.Sound.busyAssessment (h : s.Sound k out) : s.busyAssessment.Sound k out := by
  unfold State.busyAssessment
  dsimp only
  split
  · exact h
  · rename_i x current
    split
    · exact h
    · rename_i n deferrals
      have fits := h.tu.currentFits x current
      have routine : x.cls = .routine := if_neg (by rw [deferrals]; nofun)
      have counted : s.tu.current = some x := current
      split
      · exact State.Sound.abandon (s := s.count .txDeferred) h current rfl _
      · rename_i few
        rw [routine] at fits
        obtain ⟨strikes, -⟩ := fits
        exact State.Sound.recountCurrent (s := s.count .txDeferred) h current rfl
          (routine ▸ ⟨strikes, n + 1, rfl, by omega⟩)

end Sys2Proof.Machine
end

section
/-! SUPPORT. Body ends, radio restarts, relays, the purge of the RESET actions and the dispatch of a flood keep the pool sound
(R113, R114, R127, R131, R141 to R150). -/
namespace Sys2Proof.Machine

variable {k : Bool} {out : List Claim} {s : State}

/-! ## Body end and radio restart -/

theorem State.Sound.commit (h : s.Sound k out) (alert : Bool) : (s.commit alert).Sound k out := by
  unfold State.commit
  split <;> exact h

theorem State.releaseTu_tu (s : State) : s.releaseTu.tu = s.tu := by
  unfold State.releaseTu
  split <;> rfl

theorem State.Sound.bodyEnded {x : TxEntry} (h : s.Sound k out) (current : s.tu.current = some x) :
    (s.bodyEnded x).Sound k out := by
  have counted : ∀ {u : State}, u.Sound k out → u.tu = s.tu →
      ((({ (u.stopGuard .body).releaseTu with tu := { (u.stopGuard .body).releaseTu.tu with
        current := none, phase := .idle } } : State).freeAll [x.buf])).Sound k out := fun {u} sound tu =>
    State.Sound.freeOne (State.Sound.takeCurrent (State.Sound.releaseTu (s := u.stopGuard .body) sound)
      ((congrArg Tu.current (State.releaseTu_tu _)).trans ((congrArg Tu.current tu).trans current)) rfl rfl rfl)
  have freed : State.Sound k out (({ ((if x.mark = .relay then (s.count .txSent).count .relaySent else s.count .txSent).stopGuard
      .body).releaseTu with tu := { ((if x.mark = .relay then (s.count .txSent).count .relaySent else s.count .txSent).stopGuard
      .body).releaseTu.tu with current := none, phase := .idle } } : State).freeAll [x.buf]) := by
    refine counted ?_ ?_
    · split <;> exact h
    · split <;> rfl
  have told := freed.commit s.tu.sentAlert
  unfold State.bodyEnded
  dsimp only
  refine State.Sound.select ?_
  split
  · refine State.Sound.clearOwn ?_ _
    split
    · exact told.faultBodyEnded
    · exact told
  · split
    · exact told.faultBodyEnded
    · exact told

theorem State.Sound.watchReturned (h : s.Sound k out) : s.watchReturned.Sound k out := by
  unfold State.watchReturned
  cases queue : s.tu.urgent with
  | nil => exact h
  | cons e rest =>
    have sound := h.tu
    have backs := h.backs
    rw [queue] at sound backs
    refine { h with backs := ?_, tu := ⟨fun y hy => ?_, sound.routineFits, sound.currentFits, ?_⟩ }
    · simpa [txClaims, TxEntry.queuedClaim, Function.comp_def] using backs
    · obtain rfl | hy := List.mem_cons.1 hy
      · exact sound.urgentFits e List.mem_cons_self
      · obtain ⟨z, hz, rfl⟩ := List.mem_map.1 hy
        exact sound.urgentFits z (List.mem_cons_of_mem _ hz)
    · simpa [txPlaces] using sound.places

/-- The frame in progress at a restart returns with a strike, or is out (R114). -/
theorem State.Sound.restartFrame (h : s.Sound k out) (strike : Bool) :
    ∃ l : List Claim, l.map (·.1) = (s.restartFrame strike).2 ∧ (s.restartFrame strike).1.Sound k (l ++ out) := by
  unfold State.restartFrame
  split
  · exact ⟨[], rfl, h⟩
  · rename_i x current
    split
    · exact ⟨[x.sendingClaim], rfl, (h.takeCurrent (tu := { s.tu with current := none }) current rfl rfl rfl).count .txAbandoned⟩
    · rename_i charged
      have counted := h.recountCurrent (y := { x with strikes := if strike then x.strikes + 1 else x.strikes }) current rfl (by
        have fits := h.tu.currentFits x current
        have strikes : (if strike then x.strikes + 1 else x.strikes) ≤ 2 := by
          have := fits.1
          cases strike <;> simp at charged ⊢ <;> omega
        exact ⟨strikes, fits.2⟩)
      dsimp only at counted ⊢
      generalize ({ s with tu := { s.tu with current := some { x with
        strikes := if strike then x.strikes + 1 else x.strikes } } } : State) = u at counted ⊢
      split
      · exact ⟨[], rfl, counted.returnCurrent.watchReturned⟩
      · exact ⟨[], rfl, counted.returnCurrent⟩

/-- The radio is taken from the frame being received, whose buffer is out (R99, R102, R113). -/
theorem State.Sound.takeReception {r : Radio} (h : s.Sound k out) (wait : r.waitSince = none) (gone : r.reception = none) :
    State.Sound k ((s.radio.reception.bind Reception.claim).toList ++ out) { s with radio := r } :=
  { h with
    backs := by
      refine h.backs.perm ?_
      dsimp only
      rw [gone, Option.bind_none, Option.toList_none, List.append_nil, List.append_assoc]
      refine List.perm_append_comm.trans ?_
      rw [List.append_assoc, List.append_assoc]
    radio := Radio.receivesSoundly_of_idle wait gone }

theorem Radio.claim_buf (r : Radio) :
    ((r.reception.bind Reception.claim).toList).map (·.1) = (r.reception.bind (·.buf)).toList := by
  cases r.reception with
  | none => rfl
  | some x =>
    obtain ⟨level, latch, buf, refused, bodyLen⟩ := x
    cases buf <;> rfl

theorem State.Sound.recordRestart (h : s.Sound k out) : s.recordRestart.Sound k out := by
  have stored : State.Sound k out { s with sv := { s.sv with
    history := historyAfter s.sv.history s.ms, stall := s.after (seconds 60), failed := s.after (seconds 600) } } := h
  unfold State.recordRestart
  dsimp only
  split
  · exact (stored.raiseOwn _).raiseOwn _
  · exact stored.raiseOwn _

theorem State.Sound.radioRestart (h : s.Sound k out) (strike : Bool) : (s.radioRestart strike).Sound k out := by
  have down : s.radioDown.Sound k ((s.radio.reception.bind Reception.claim).toList ++ out) :=
    h.takeReception (r := s.radioDown.radio) rfl rfl
  obtain ⟨l, freed, returned⟩ := down.restartFrame strike
  unfold State.radioRestart
  dsimp only
  refine (((State.Sound.freeAll (l := (s.radio.reception.bind Reception.claim).toList ++ l) ?_ ?_).tellUnsent
    _).startWatch).recordRestart
  · refine returned.out_perm ?_
    rw [← List.append_assoc]
    exact List.perm_append_comm.append_right _
  · rw [List.map_append, freed, Radio.claim_buf]

/-! ## Relays -/

/-- Relay wait records changed in place keep buffer, class and origin. -/
theorem State.Sound.mapWaits {f : RelayWait → RelayWait} (h : s.Sound k out) (buf : ∀ w, (f w).buf = w.buf)
    (cls : ∀ w, (f w).cls = w.cls) (origin : ∀ w, (f w).origin = w.origin) :
    State.Sound k out { s with fu := { s.fu with relayWaits := s.fu.relayWaits.map f } } :=
  { h with
    backs := by
      have same : (s.fu.relayWaits.map f).map RelayWait.claim = s.fu.relayWaits.map RelayWait.claim := by
        rw [List.map_map]
        exact List.map_congr_left fun w _ => by rw [Function.comp, RelayWait.claim, RelayWait.claim, buf, cls]
      dsimp only
      rw [same]
      exact h.backs
    relays :=
      { h.relays with
        waiters := ⟨h.relays.waiters.1, fun b hb => by
          obtain ⟨w, hw, own, urgent⟩ := h.relays.waiters.2 b hb
          exact ⟨f w, List.mem_map_of_mem hw, (buf w).trans own, (cls w).trans urgent⟩⟩
        pins := fun x hx => by
          rw [List.countP_map]
          refine Nat.le_trans (h.relays.pins x hx) (Nat.le_of_eq (List.countP_congr fun w _ => ?_))
          rw [Function.comp, origin] } }

theorem State.Sound.endRelayWait (h : s.Sound k out) (b : Fin 8) : (s.endRelayWait b).Sound k out :=
  h.mapWaits (fun w => by split <;> rfl) (fun w => by split <;> rfl) (fun w => by split <;> rfl)

theorem State.relayWaitOf_mem {b : Fin 8} {w : RelayWait} (found : s.relayWaitOf b = some w) :
    w ∈ s.fu.relayWaits ∧ w.buf = b := ⟨List.mem_of_find?_eq_some found, by simpa using List.find?_some found⟩

/-- A relay copy joins the waiters, once (R136). -/
theorem State.Sound.joinRelay {b : Fin 8} {w : RelayWait} (h : s.Sound k out) (found : s.relayWaitOf b = some w)
    (urgent : w.cls = .urgent) (new : .relay b ∉ s.fu.waiters) : (s.joinWaiters (.relay b)).Sound k out := by
  obtain ⟨mem, buf⟩ := State.relayWaitOf_mem found
  obtain ⟨apart, all⟩ := h.relays.waiters
  refine h.withFu rfl { h.relays with waiters := ⟨?_, fun c hc => ?_⟩ }
  · rw [List.filterMap_append]
    refine List.nodup_append.2 ⟨apart, List.pairwise_singleton _ b, fun c hc d hd => ?_⟩
    obtain rfl := List.mem_singleton.1 hd
    exact fun eq => new (mem_relayBufs.1 (eq ▸ hc))
  · obtain hc | hc := List.mem_append.1 hc
    · exact all c hc
    · obtain rfl := Waiter.relay.inj (List.mem_singleton.1 hc)
      exact ⟨w, mem, buf, urgent⟩

theorem State.Sound.relayOffer (h : s.Sound k out) (b : Fin 8) : (s.relayOffer b).Sound k out := by
  unfold State.relayOffer
  split
  · exact h
  · rename_i w found
    obtain ⟨mem, rfl⟩ := State.relayWaitOf_mem found
    split
    · rename_i place
      exact h.relayAccepted found (h.wait_stands mem).2 place
    · split
      · rename_i urgent
        split
        · exact h
        · rename_i new
          exact h.joinRelay found urgent (by simpa using new)
      · exact State.Sound.freeOne ((h.dropRelayWait found).count .txAbandoned)

/-- A flood's buffer becomes its relay copy's: the record, and the pin of its origin (R148). -/
theorem State.Sound.startWait {b : Fin 8} {P : Buffer → Prop} {w : RelayWait} {x : Buffer} (h : s.Sound k ((b, P) :: out))
    (buf : w.buf = b) (stands : x.Stands .relayWait w.cls) :
    State.Sound k out { s.setBuf b x with fu := { s.fu with
      relayWaits := s.fu.relayWaits ++ [w], seen := seenPin w.origin s.fu.seen } } := by
  have taken : x.state ≠ .free := stands.taken nofun
  refine { h with backs := ?_, relays := ?_, flag := fun hk => (h.flag hk).put (h.backs.kept _ List.mem_cons_self).1 taken }
  · refine (h.backs.put (Q := Buffer.Stands .relayWait w.cls) taken stands).perm ?_
    have claim : w.claim = (b, Buffer.Stands .relayWait w.cls) := by rw [RelayWait.claim, buf]
    dsimp only
    rw [List.map_append, List.map_singleton, claim]
    simp only [List.append_assoc, List.singleton_append]
    rw [← List.append_assoc, ← List.append_assoc]
    refine List.perm_middle.trans ?_
    simp only [List.append_assoc]
    exact .refl _
  · refine { h.relays with
      waiters := ⟨h.relays.waiters.1, fun c hc => ?_⟩
      pins := fun y hy => ?_
      room := by rw [seenPin, List.length_map]; exact h.relays.room
      keyed := seenPin_keys h.relays.keyed }
    · obtain ⟨v, hv, rest⟩ := h.relays.waiters.2 c hc
      exact ⟨v, List.mem_append_left _ hv, rest⟩
    · obtain ⟨e, he, rfl⟩ := List.mem_map.1 hy
      have pins := h.relays.pins e he
      rw [List.countP_append, List.countP_singleton]
      split
      · rename_i own
        rw [if_pos (decide_eq_true own.symm)]
        exact Nat.add_le_add_right pins 1
      · exact Nat.le_trans pins (Nat.le_add_right _ _)

theorem State.Sound.relay {b : Fin 8} {P : Buffer → Prop} (h : s.Sound k ((b, P) :: out))
    (cls : (s.buf b).cls = some (classOfKind (Frame.kind (s.buf b).frame))) : (s.relay b).Sound k out := by
  unfold State.relay
  dsimp only
  split
  · have started := h.startWait (w := {
        buf := b, origin := Frame.origin (s.buf b).frame, run := Frame.run (s.buf b).frame, seq := Frame.seq (s.buf b).frame,
        cls := classOfKind (Frame.kind (s.buf b).frame), copies := 0, running := true,
        endsAt := s.now + s.relayWaitTime (classOfKind (Frame.kind (s.buf b).frame)) })
      (x := { s.buf b with state := .relayWait, frame := Frame.relayCopy s.cfg.address (s.buf b).frame }) rfl ⟨rfl, cls⟩
    split
    · exact (State.Sound.endRelayWait (s := State.drawn _) started b).relayOffer b
    · exact started
  · exact h.freeOne

theorem State.Sound.copyHeard (h : s.Sound k out) (origin : Addr) (run seq : BitVec 8) :
    (s.copyHeard origin run seq).Sound k out := by
  unfold State.copyHeard
  split
  · exact h
  · rename_i w found
    split
    · have mem := List.mem_of_find?_eq_some found
      obtain ⟨v, hv⟩ := Option.isSome_iff_exists.1 (List.find?_isSome (xs := s.fu.relayWaits)
        (p := fun v => decide (v.buf = w.buf)) |>.2 ⟨w, mem, decide_eq_true rfl⟩)
      exact State.Sound.freeOne ((h.dropRelayWait hv).count .relaySuppressed)
    · exact h.mapWaits (fun w => by split <;> rfl) (fun w => by split <;> rfl) (fun w => by split <;> rfl)

/-! ## The purge (R127, R146) -/

theorem List.perm_filter_not {α : Type} (p : α → Bool) (l : List α) : l.Perm (l.filter p ++ l.filter (fun x => !p x)) :=
  (List.filter_append_perm p l).symm

theorem State.Sound.purgeQueued (h : s.Sound k out) (e : BitVec 8) :
    ∃ l : List Claim, l.map (·.1) = (s.purgeQueued e).2 ∧ (s.purgeQueued e).1.Sound k (l ++ out) := by
  have sound := h.tu
  let gone := s.tu.urgent.filter (fun x => Frame.purgedBy e (s.buf x.buf).frame)
  let left := s.tu.urgent.filter (fun x => !Frame.purgedBy e (s.buf x.buf).frame)
  have split : s.tu.urgent.Perm (gone ++ left) := List.perm_filter_not _ _
  refine ⟨gone.map (·.queuedClaim .urgent), by rw [List.map_map]; rfl, { h with backs := ?_, tu := ?_ }⟩
  · refine h.backs.perm ?_
    have claims := split.map (·.queuedClaim .urgent)
    rw [List.map_append] at claims
    rw [List.append_assoc]
    refine (List.perm_append_comm_assoc _ _ _).trans (List.Perm.append_left out ?_)
    rw [← List.append_assoc]
    refine List.Perm.append_right _ ?_
    simp only [txClaims, ← List.append_assoc]
    exact ((claims.append_right _).append_right _).symm
  · refine ⟨fun x hx => sound.urgentFits x (List.mem_filter.1 hx).1, sound.routineFits, sound.currentFits, ?_, sound.places.2⟩
    exact Nat.le_trans (Nat.add_le_add_right (List.length_filter_le _ _) _) sound.places.1

theorem State.stopOperation_tu (s : State) : s.stopOperation.tu =
    { s.tu with phase := .idle, backoff := none, waiting := false, preambleEnd := none } := State.releaseTu_tu _

theorem State.Sound.stopWatchOf (h : s.Sound k out) (x : TxEntry) : (s.stopWatchOf x).Sound k out := by
  unfold State.stopWatchOf
  split
  · exact h
  · exact h

theorem State.Sound.purgeCurrent (h : s.Sound k out) (e : BitVec 8) :
    ∃ l : List Claim, l.map (·.1) = (s.purgeCurrent e).2 ∧ (s.purgeCurrent e).1.Sound k (l ++ out) := by
  unfold State.purgeCurrent
  split
  · rename_i x current
    split
    · have taken := h.stopOperation.takeCurrent (x := x) (tu := { s.stopOperation.tu with current := none })
        (by rw [State.stopOperation_tu]; exact current) rfl rfl rfl
      exact ⟨[x.sendingClaim], rfl, taken.stopWatchOf x⟩
    · exact ⟨[], rfl, h⟩
  · exact ⟨[], rfl, h⟩

/-- Relay waits removed one after another, each standing until its turn. -/
theorem State.Sound.dropWaits {bs : List (Fin 8)} (h : s.Sound k out) (apart : bs.Nodup)
    (standing : ∀ b ∈ bs, b ∈ s.fu.relayWaits.map (·.buf)) :
    ∃ l : List Claim, l.map (·.1) = bs ∧ (bs.foldl (fun t b => t.dropRelayWait b) s).Sound k (l ++ out) := by
  induction bs generalizing s out with
  | nil => exact ⟨[], rfl, h⟩
  | cons b bs ih =>
    obtain ⟨gone, apart⟩ := List.nodup_cons.1 apart
    obtain ⟨v, mem, same⟩ := List.mem_map.1 (standing b List.mem_cons_self)
    obtain ⟨w, found⟩ := Option.isSome_iff_exists.1 (List.find?_isSome (xs := s.fu.relayWaits)
      (p := fun v => decide (v.buf = b)) |>.2 ⟨v, mem, decide_eq_true same⟩)
    obtain ⟨l, bufs, sound⟩ := ih (h.dropRelayWait found) apart fun c hc => by
      obtain ⟨u, hu, rfl⟩ := List.mem_map.1 (standing c (List.mem_cons_of_mem _ hc))
      rw [State.dropRelayWait_of found]
      exact List.mem_map.2 ⟨u, List.mem_filter.2 ⟨hu, decide_eq_true fun eq => gone (eq ▸ hc)⟩, rfl⟩
    refine ⟨(b, Buffer.Stands .relayWait w.cls) :: l, congrArg (b :: ·) bufs, sound.out_perm ?_⟩
    exact List.perm_middle.symm

theorem State.Sound.waits_nodup (h : s.Sound k out) : (s.fu.relayWaits.map (·.buf)).Nodup := by
  have all := h.backs.onePlace
  rw [List.map_append, List.map_append, List.map_append] at all
  have := (List.nodup_append.1 (List.nodup_append.1 (List.nodup_append.1 all).2.1).2.1).1
  rwa [List.map_map] at this

theorem State.Sound.purgeWaits (h : s.Sound k out) (e : BitVec 8) :
    ∃ l : List Claim, l.map (·.1) = (s.purgeWaits e).2 ∧ (s.purgeWaits e).1.Sound k (l ++ out) :=
  h.dropWaits (h.waits_nodup.sublist (List.filter_sublist.map _)) fun _ hb => (List.filter_sublist.map _).subset hb

theorem State.Sound.purgePending (h : s.Sound k out) (e : BitVec 8) : (s.purgePending e).Sound k out :=
  h.filterWaiters fun _ => rfl

theorem State.Sound.purge (h : s.Sound k out) (e : BitVec 8) : (s.purge e).Sound k out := by
  obtain ⟨l1, bufs1, h1⟩ := h.purgeQueued e
  obtain ⟨l2, bufs2, h2⟩ := h1.purgeCurrent e
  obtain ⟨l3, bufs3, h3⟩ := h2.purgeWaits e
  have freed : State.Sound k out (State.freeAll _ (State.purgePending e _)) :=
    State.Sound.freeAll (l := l1 ++ l2 ++ l3) ((h3.purgePending e).out_perm ?_)
      (by rw [List.map_append, List.map_append, bufs1, bufs2, bufs3])
  · exact freed.select.startWatch
  · rw [← List.append_assoc, ← List.append_assoc]
    refine List.Perm.append_right out ?_
    rw [List.append_assoc]
    exact List.perm_append_comm.trans (List.perm_append_comm.append_right l1)

end Sys2Proof.Machine
end

section
/-! SUPPORT. Every effect of a command keeps the pool sound: the detection unit's, the flood unit's, the receive unit's and the
start-up controller's. -/
namespace Sys2Proof.Machine

variable {k : Bool} {out : List Claim} {s : State}

/-! ## The parts the pool does not rest on -/

theorem State.Sound.withEv (h : s.Sound k out) (ev : Evidence) : State.Sound k out { s with ev := ev } := h

theorem State.Sound.withFaults (h : s.Sound k out) (f : FaultLog) : State.Sound k out { s with faults := f } := h

theorem State.Sound.withLu (h : s.Sound k out) (lu : Lu) : State.Sound k out { s with lu := lu } := h

theorem State.Sound.withSv (h : s.Sound k out) (sv : Sv) : State.Sound k out { s with sv := sv } := h

theorem State.Sound.withMu (h : s.Sound k out) (mu : Mu) : State.Sound k out { s with mu := mu } := h

theorem State.Sound.withSc (h : s.Sound k out) (sc : Sc) : State.Sound k out { s with sc := sc } := h

theorem State.Sound.withSu (h : s.Sound k out) (su : Su) : State.Sound k out { s with su := su } := h

theorem State.Sound.withDet (h : s.Sound k out) (d : Detection) : State.Sound k out { s with det := d } := h

theorem State.Sound.withNt (h : s.Sound k out) (nt : List Neighbour) : State.Sound k out { s with nt := nt } := h

/-! ## The detection unit -/

theorem State.Sound.enterFire (h : s.Sound k out) (origin : Addr) (zone cause : Byte) :
    (s.enterFire origin zone cause).Sound k out := by
  unfold State.enterFire
  split
  · exact h
  · split
    · exact State.Sound.panelRecord (s := { s with fu := { s.fu with
        fires := s.fu.fires ++ [{ origin := origin, zone := zone, cause := cause, silenced := false }] } }) h ..
    · exact h

theorem State.Sound.restartObservation (h : s.Sound k out) : s.restartObservation.Sound k out := by
  obtain ⟨d, e, eq⟩ := restartObservation_eq (s := s)
  rw [eq]
  exact h

theorem State.Sound.announceState (h : s.Sound k out) : s.announceState.Sound k out := h.restartObservation.requestObservation

theorem State.Sound.takeProfile (h : s.Sound k out) (p : Profile) : (s.takeProfile p).Sound k out := by
  have told : State.Sound k out { s with det := { s.det with
    profile := p, serviceLimit := if p = Profile.service then s.after (seconds 14400) else none } } := h
  exact told.requestObservation.panelRecord ..

theorem State.Sound.profileRequest (h : s.Sound k out) (p : Profile) : (s.profileRequest p).Sound k out := by
  unfold State.profileRequest
  split
  · split
    · split <;> exact h
    · split
      · split <;> exact h
      · exact h.takeProfile p
  · exact h

theorem State.Sound.takePending (h : s.Sound k out) : s.takePending.Sound k out := by
  unfold State.takePending
  split
  · rename_i p _
    exact State.Sound.takeProfile (s := { s with det := { s.det with pendingProfile := none } }) h p
  · exact h

theorem State.Sound.serviceEnded (h : s.Sound k out) : s.serviceEnded.Sound k out := by
  unfold State.serviceEnded
  split
  · exact h
  · split
    · exact h
    · exact h.takeProfile _

/-- A change of state with its pending profile (R47, R56). -/
theorem State.Sound.leftState (h : s.Sound k out) (st : DetState) :
    (if s.det.state = .verify then (s.setDetState st).takePending else s.setDetState st).Sound k out := by
  have set : (s.setDetState st).Sound k out := h
  split
  · exact set.takePending
  · exact set

theorem State.Sound.changeState (h : s.Sound k out) (st : DetState) : (s.changeState st).Sound k out :=
  (h.leftState st).announceState

theorem State.Sound.declare (h : s.Sound k out) (c : FireCause) : (s.declare c).Sound k out := by
  have recorded : State.Sound k out { s with det := { s.det with
    cause := some c, evidence := some s.ev.e, refresh := s.after (seconds 30) } } := h
  exact (recorded.enterFire ..).askFire ..

theorem State.Sound.enterFireState (h : s.Sound k out) (c : FireCause) : (s.enterFireState c).Sound k out :=
  ((h.leftState .fire).declare c).announceState

theorem State.Sound.watchRule (h : s.Sound k out) : s.watchRule.Sound k out := by
  unfold State.watchRule
  split
  · exact h.changeState _
  · dsimp only
    split
    · exact h.changeState _
    · exact h

theorem State.Sound.verifyRule (h : s.Sound k out) : s.verifyRule.Sound k out := by
  have counted : s.verifyCounts.Sound k out := h
  unfold State.verifyRule
  dsimp only
  split
  · exact counted.enterFireState _
  · split
    · exact counted.changeState _
    · exact counted

theorem State.Sound.transitions (h : s.Sound k out) (theta : Option Int) : (s.transitions theta).Sound k out := by
  unfold State.transitions
  split
  · exact h.enterFireState _
  · split
    · split
      · exact h.changeState _
      · exact h
    · exact h.watchRule
    · exact h.verifyRule
    · exact h

theorem State.Sound.evaluate (h : s.Sound k out) (set : SampleSet) : (s.evaluate set).Sound k out := by
  have figured : State.Sound k out { s with ev := s.ev.figures s.cfg set } := h
  have moved := figured.transitions set.computedTheta
  unfold State.evaluate
  dsimp only
  split
  · exact (moved.withEv _).raiseOwn _
  · exact moved

theorem State.Sound.refreshFire (h : s.Sound k out) : s.refreshFire.Sound k out := by
  unfold State.refreshFire
  split
  · exact h.askFire ..
  · exact h

theorem State.Sound.resetNotice (h : s.Sound k out) : s.resetNotice.Sound k out := by
  have quiet : State.Sound k out { s with det := { s.det with
    state := .quiet, verifyStart := none, hyst := 0, sat := 0, refresh := none, cause := none, evidence := none } } := h
  have left : (if s.det.state = .verify then State.takePending { s with det := { s.det with
    state := .quiet, verifyStart := none, hyst := 0, sat := 0, refresh := none, cause := none, evidence := none } }
      else { s with det := { s.det with
        state := .quiet, verifyStart := none, hyst := 0, sat := 0, refresh := none, cause := none, evidence := none } }).Sound
          k out := by
    split
    · exact quiet.takePending
    · exact quiet
  unfold State.resetNotice
  dsimp only
  split
  · exact left
  · exact left.announceState

/-! ## The flood unit -/

theorem State.Sound.faultMarksCleared (h : s.Sound k out) : s.faultMarksCleared.Sound k out := (h.withFaults _).look

theorem State.Sound.resetActions (h : s.Sound k out) (e : BitVec 8) (origin : Addr) (zone : Byte) :
    (s.resetActions e origin zone).Sound k out := by
  have adopted : State.Sound k out { s with fu := { s.fu with epoch := e, fires := [], overflow := false } } := h
  have purged := adopted.resetNotice.purge e
  have cleared := purged.faultMarksCleared
  unfold State.resetActions State.resetLines
  dsimp only
  split
  · exact (cleared.withLu _).panelRecord ..
  · exact cleared

theorem State.Sound.silence (h : s.Sound k out) (origin : Addr) (zone : Byte) : (s.silence origin zone).Sound k out :=
  State.Sound.panelRecord (s := s.silenceList) h ..

theorem State.Sound.remoteItems (h : s.Sound k out) (origin : Addr) (zone : Byte) (items : List (Byte × Addr × Byte)) :
    (items.foldl (fun t i => t.remoteItem origin zone i) s).Sound k out := by
  induction items generalizing s with
  | nil => exact h
  | cons i items ih => exact ih ((h.withLu _).panelRecord ..)

theorem State.Sound.kindAction (h : s.Sound k out) (f : List Byte) : (s.kindAction f).Sound k out := by
  unfold State.kindAction
  split
  · exact h.enterFire ..
  · exact h.silence ..
  · exact h.profileRequest _
  · split
    · exact h.remoteItems ..
    · exact h
  · exact h

/-- A flood's buffer, of its kind's class, is out with its contents `y`. -/
theorem State.Sound.acceptFlood {b : Fin 8} {y : Buffer} (h : s.Sound k ((b, (· = y)) :: out))
    (cls : y.cls = some (classOfKind (Frame.kind y.frame))) : (s.acceptFlood b).Sound k out := by
  have relayed : ∀ {u : State}, u.Sound k ((b, (· = y)) :: out) → (u.relay b).Sound k out := fun {u} sound => by
    have same : u.buf b = y := sound.out_kept List.mem_cons_self
    exact sound.relay (by rw [same]; exact cls)
  unfold State.acceptFlood
  dsimp only
  split
  · split
    · exact relayed ((h.resetActions ..).kindAction _)
    · split
      · exact State.Sound.freeOne (h.count .rxStale)
      · exact relayed (h.kindAction _)
  · exact relayed (h.kindAction _)

theorem State.Sound.floodDispatch {b : Fin 8} {y : Buffer} (h : s.Sound k ((b, (· = y)) :: out))
    (cls : y.cls = some (classOfKind (Frame.kind y.frame))) : (s.floodDispatch b).Sound k out := by
  have looked := h.seenTake s.ms (Frame.origin (s.buf b).frame) (Frame.run (s.buf b).frame) (Frame.seq (s.buf b).frame)
  unfold State.floodDispatch
  dsimp only
  split
  · exact looked.acceptFlood cls
  · exact State.Sound.freeOne ((looked.count .rxDuplicate).copyHeard ..)
  · exact State.Sound.freeOne (looked.count .rxStale)

theorem State.Sound.silencePress (h : s.Sound k out) : s.silencePress.Sound k out := (h.silence ..).askSilence

theorem State.Sound.resetPress (h : s.Sound k out) : s.resetPress.Sound k out := (h.resetActions ..).askReset

theorem State.Sound.profileChange (h : s.Sound k out) (p : Profile) : (s.profileChange p).Sound k out := by
  have told := (h.askProfile p).profileRequest p
  unfold State.profileChange
  exact told

theorem State.Sound.profileRefreshed (h : s.Sound k out) : s.profileRefreshed.Sound k out :=
  (h.askProfile .service).profileRequest .service

/-! ## The receive unit -/

theorem State.Sound.takeNeighbour (h : s.Sound k out) (p : SenderPart) : (s.takeNeighbour p).Sound k out := by
  have told : State.Sound k out (match (takeSender s.now s.ms (supervisionLimit s.cfg.observationPeriod) p s.nt).1 with
      | .updated true => State.clear .neighbourLost p.addr { s with
          nt := (takeSender s.now s.ms (supervisionLimit s.cfg.observationPeriod) p s.nt).2 }
      | .refused => State.count .neighbourRefused { s with
          nt := (takeSender s.now s.ms (supervisionLimit s.cfg.observationPeriod) p s.nt).2 }
      | _ => { s with nt := (takeSender s.now s.ms (supervisionLimit s.cfg.observationPeriod) p s.nt).2 }) := by
    have taken : State.Sound k out { s with
      nt := (takeSender s.now s.ms (supervisionLimit s.cfg.observationPeriod) p s.nt).2 } := h
    split
    · exact taken.clear ..
    · exact taken
    · exact taken
  unfold State.takeNeighbour
  dsimp only
  split
  · exact told.select
  · exact told

/-- A buffer that is out moves to another state. -/
theorem State.Sound.moveOut {b : Fin 8} {P : Buffer → Prop} {st : BufState} (h : s.Sound k ((b, P) :: out))
    (taken : st ≠ .free) : (s.moveBuf b st).Sound k ((b, (· = { s.buf b with state := st })) :: out) :=
  { h with
    backs := h.backs.put taken rfl
    flag := fun hk => (h.flag hk).put (h.backs.kept _ List.mem_cons_self).1 taken }

theorem State.Sound.dispatch {b : Fin 8} {P : Buffer → Prop} (h : s.Sound k ((b, P) :: out)) (level : Int)
    (cls : (s.buf b).cls = some (classOfKind (Frame.kind (s.buf b).frame))) : (s.dispatch b level).Sound k out := by
  have told := State.Sound.takeNeighbour ((h.moveOut (st := .dispatch) nofun).count .rxGood)
    (senderPart level (s.buf b).frame)
  unfold State.dispatch
  dsimp only
  split
  · exact told.freeOne
  · exact told.floodDispatch cls

theorem State.Sound.releaseRx (h : s.Sound k out) :
    s.releaseRx.Sound k ((s.radio.reception.bind Reception.claim).toList ++ out) :=
  h.takeReception (r := s.releaseRx.radio) rfl rfl

/-- The receive unit releases the radio without a frame being taken. -/
theorem State.Sound.releaseRx_of_none (h : s.Sound k out) (none : s.radio.reception.bind (·.buf) = none) :
    s.releaseRx.Sound k out := by
  have released := h.releaseRx
  have empty : ((s.radio.reception.bind Reception.claim).toList).map (·.1) = [] := by rw [Radio.claim_buf, none]; rfl
  rw [List.map_eq_nil_iff.1 empty] at released
  exact released

theorem State.Sound.frameEnded {b : Fin 8} {r : Reception} (h : s.Sound k out) (taking : s.radio.reception = some r)
    (buf : r.buf = some b) (level : Int) (taken : Nat) : (s.frameEnded b level taken).Sound k out := by
  have stopped : State.Sound k out ((s.stopGuard .header).stopGuard .frame) := h
  have released := stopped.releaseRx
  have claim : (s.radio.reception.bind Reception.claim).toList = [(b, fun y =>
      y.Stands .receiving (classOfKind (Frame.kind y.frame)) ∧ 3 ≤ y.frame.length ∧ r.latch ≠ [])] := by
    rw [taking, Option.bind_some, Reception.claim, buf]
    rfl
  have released : State.Sound k _ (State.releaseRx _) := claim ▸ released
  unfold State.frameEnded
  dsimp only
  split
  · exact State.Sound.freeOne (released.count _)
  · exact State.Sound.dispatch released level (released.out_kept List.mem_cons_self).1.2

theorem State.Sound.discardEnded (h : s.Sound k out) (none : s.radio.reception.bind (·.buf) = none) :
    s.discardEnded.Sound k out :=
  State.Sound.releaseRx_of_none (s := (s.stopGuard .header).stopGuard .frame) h none

/-- The reception is replaced, its buffer's contents with it. -/
theorem State.Sound.receive {r r' : Reception} {b : Fin 8} {x : Buffer} (h : s.Sound k out)
    (taking : s.radio.reception = some r) (buf : r.buf = some b) (buf' : r'.buf = some b)
    (asked : x.Stands .receiving (classOfKind (Frame.kind x.frame)) ∧ 3 ≤ x.frame.length ∧ r'.latch ≠ []) :
    (State.setReception r' (s.setBuf b x)).Sound k out := by
  have claim : ∀ {q : Reception}, q.buf = some b → q.claim = some (b, fun y =>
      y.Stands .receiving (classOfKind (Frame.kind y.frame)) ∧ 3 ≤ y.frame.length ∧ q.latch ≠ []) := fun buf => by
    rw [Reception.claim, buf]
    rfl
  have last : ∀ {q : Reception} {l : List Claim}, q.buf = some b → (l ++ q.claim.toList).Perm ((b, fun y =>
      y.Stands .receiving (classOfKind (Frame.kind y.frame)) ∧ 3 ≤ y.frame.length ∧ q.latch ≠ []) :: l) := fun buf => by
    rw [claim buf]
    exact List.perm_append_singleton _ _
  have stood := h.backs
  simp only [taking, Option.bind_some, ← List.append_assoc] at stood
  have stood := stood.perm (last buf).symm
  have taken : x.state ≠ .free := asked.1.taken nofun
  have held := h.radio.1 (.inr (by rw [taking]; nofun))
  refine { h with backs := ?_, radio := ⟨fun _ => held, fun wait => ?_⟩, flag := fun hk => (h.flag hk).put ?_ taken }
  · have put := (stood.put taken asked).perm (last buf')
    simp only [List.append_assoc] at put
    exact put
  · exact absurd (h.radio.2 wait) (by rw [taking]; nofun)
  · exact (stood.kept _ List.mem_cons_self).1

end Sys2Proof.Machine
end

section
/-! SUPPORT. Every command keeps the pool sound, and so does every step (R109, R110, R112): O59. -/
namespace Sys2Proof.Machine

variable {k : Bool} {out : List Claim} {s : State}

/-- Pool, transmit unit, radio and flood unit are all the soundness looks at. -/
theorem State.Sound.same {t : State} (h : s.Sound k out) (pool : t.pool = s.pool) (tu : t.tu = s.tu) (radio : t.radio = s.radio)
    (fu : t.fu = s.fu) : t.Sound k out := by
  rw [State.Sound, pool, tu, radio, fu]
  exact h

/-! ## Taking a frame -/

theorem Frame.kind_append {f g : List Byte} (h : 3 ≤ f.length) : Frame.kind (f ++ g) = Frame.kind f := by
  simp [Frame.kind, Frame.byte, List.getD, List.getElem?_append_left (show 2 < f.length from h)]

theorem State.Sound.reception_stands {r : Reception} {b : Fin 8} (h : s.Sound k out) (taking : s.radio.reception = some r)
    (buf : r.buf = some b) : (s.buf b).Stands .receiving (classOfKind (Frame.kind (s.buf b).frame)) ∧
      3 ≤ (s.buf b).frame.length ∧ r.latch ≠ [] := by
  have claim : (s.radio.reception.bind Reception.claim).toList = [(b, fun y =>
      y.Stands .receiving (classOfKind (Frame.kind y.frame)) ∧ 3 ≤ y.frame.length ∧ r.latch ≠ [])] := by
    rw [taking, Option.bind_some, Reception.claim, buf]
    rfl
  refine (h.backs.kept (b, fun y => y.Stands .receiving (classOfKind (Frame.kind y.frame)) ∧ 3 ≤ y.frame.length ∧ r.latch ≠ [])
    ?_).2
  rw [claim]
  simp

/-- Bytes are added to the frame being taken. -/
theorem State.Sound.takeBytes {r : Reception} {b : Fin 8} (h : s.Sound k out) (taking : s.radio.reception = some r)
    (buf : r.buf = some b) (rest : List Byte) (len : Option Byte) :
    (State.setReception { r with bodyLen := len } (s.setFrame b ((s.buf b).frame ++ rest))).Sound k out := by
  obtain ⟨stands, long, latched⟩ := h.reception_stands taking buf
  refine h.receive (r' := { r with bodyLen := len }) taking buf buf ⟨⟨stands.1, ?_⟩, ?_, latched⟩
  · rw [Frame.kind_append long]
    exact stands.2
  · rw [List.length_append]
    omega

/-- A frame without a buffer is replaced by one without. -/
theorem State.Sound.discarding {r r' : Reception} (h : s.Sound k out) (taking : s.radio.reception = some r)
    (buf : r.buf = none) (buf' : r'.buf = none) : (State.setReception r' s).Sound k out := by
  have held := h.radio.1 (.inr (by rw [taking]; nofun))
  have stood := h.backs
  refine { h with backs := ?_, radio := ⟨fun _ => held, fun wait => absurd (h.radio.2 wait) (by rw [taking]; nofun)⟩ }
  rw [taking, Option.bind_some, Reception.claim, buf] at stood
  simpa [State.setReception, Reception.claim, buf'] using stood

theorem State.Sound.headerEnd {r : Reception} (h : s.Sound k out) (taking : s.radio.reception = some r) (rest : List Byte)
    (len : Byte) : (s.headerEnd r rest len).Sound k out := by
  have stopped : (s.stopGuard .header).Sound k out := h
  unfold State.headerEnd
  dsimp only
  split
  · rename_i b buf
    have taken := stopped.takeBytes taking buf rest (some len)
    split
    · exact taken.frameEnded (r := { r with bodyLen := some len }) rfl buf r.level 0
    · exact taken
  · rename_i buf
    split
    · exact stopped.discardEnded (by rw [show (s.stopGuard .header).radio.reception = some r from taking]; exact buf)
    · exact stopped.discarding (r' := { r with latch := r.latch ++ rest, bodyLen := some len }) taking buf buf

theorem State.Sound.receptionEnd {r : Reception} (h : s.Sound k out) (taking : s.radio.reception = some r) (rest : List Byte) :
    (s.receptionEnd r rest).Sound k out := by
  unfold State.receptionEnd
  split
  · rename_i b buf
    have taken := h.takeBytes taking buf (frameRest r.bodyLen rest) r.bodyLen
    have same : State.setReception { r with bodyLen := r.bodyLen } (s.setFrame b ((s.buf b).frame ++ frameRest r.bodyLen rest)) =
        s.setFrame b ((s.buf b).frame ++ frameRest r.bodyLen rest) := by
      rw [State.setReception, show some ({ r with bodyLen := r.bodyLen } : Reception) = s.radio.reception from taking.symm]
      rfl
    rw [same] at taken
    exact taken.frameEnded taking buf r.level _
  · rename_i buf
    exact h.discardEnded (by rw [taking]; exact buf)

theorem State.Sound.kindByte {r : Reception} {b0 b1 kind : Byte} (h : s.Sound true out) (taking : s.radio.reception = some r)
    (early : r.latch = []) : (s.kindByte r [b0, b1, kind] kind).Sound true out := by
  have buf : r.buf = none := by
    cases buf : r.buf with
    | none => rfl
    | some b => exact absurd early (h.reception_stands taking buf).2.2
  have refused : State.Sound true out (State.count .rxNobuf (s.setReception { r with latch := [b0, b1, kind], refused := true })) :=
    h.discarding (r' := { r with latch := [b0, b1, kind], refused := true }) taking buf buf
  unfold State.kindByte
  dsimp only
  split
  · split
    · rename_i b first
      have free : (s.buf b).state = .free := Pool.free_of_firstFree first
      have held := h.radio.1 (.inr (by rw [taking]; nofun))
      have stood := h.backs
      rw [taking, Option.bind_some, Reception.claim, buf, Option.map_none, Option.toList_none, List.append_nil] at stood
      have claimed := stood.claim (Q := fun y => y.Stands .receiving (classOfKind (Frame.kind y.frame)) ∧ 3 ≤ y.frame.length ∧
        [b0, b1, kind] ≠ []) free (x := {
          state := .receiving, cls := some (classOfKind kind), frame := [b0, b1, kind], level := some r.level }) nofun ⟨⟨rfl, rfl⟩, Nat.le_refl 3, nofun⟩
      refine State.Sound.recount (k := false) { h with
        backs := claimed.perm ?_
        radio := ⟨fun _ => held, fun wait => absurd (h.radio.2 wait) (by rw [taking]; nofun)⟩
        flag := nofun }
      simp only [← List.append_assoc]
      exact List.perm_append_singleton _ _
    · exact refused
  · exact refused

theorem State.Sound.enterReceiving (h : s.Sound k out) (none : s.radio.reception = none) : s.enterReceiving.Sound k out := by
  refine h.withRadio none.symm ⟨fun _ => ⟨rfl, rfl⟩, fun _ => rfl⟩

theorem State.Sound.delimiter (h : s.Sound k out) (level : Int) (waits : s.radio.waitSince.isSome = true) :
    (s.delimiter level).Sound k out := by
  have wait : s.radio.waitSince ≠ none := fun none => by rw [none] at waits; cases waits
  have none := h.radio.2 wait
  have stood := h.backs
  rw [none] at stood
  exact { h with
    backs := stood
    radio := ⟨fun _ => h.radio.1 (.inl wait), fun ne => absurd rfl ne⟩ }

/-- The wait for a delimiter ends without a frame (R104). -/
theorem State.Sound.waitEnded (h : s.Sound k out) (waits : s.radio.waitSince.isSome = true) :
    ((s.count .falseWake).releaseRx).Sound k out := by
  have none := h.radio.2 fun none => by rw [none] at waits; cases waits
  exact State.Sound.releaseRx_of_none (s := s.count .falseWake) h (by
    rw [show (s.count .falseWake).radio.reception = Option.none from none]
    rfl)

/-! ## Channel access -/

theorem State.Sound.grant (h : s.Sound k out) (other : s.radio.rx ≠ .receiving ∨ s.radio.owner ≠ .receiveUnit) :
    s.grant.Sound k out := by
  have granted : State.Sound k out { s with radio := { s.radio with owner := .tu, rx := .off } } := h.radioIdle other rfl rfl
  exact granted.txTimers (tu := { s.tu with phase := .assess, waiting := false }) rfl rfl rfl

theorem State.Sound.request (h : s.Sound k out) : s.request.Sound k out := by
  unfold State.request
  split
  · exact h
  · rename_i owner
    exact h.grant (.inr fun eq => nomatch owner.symm.trans eq)
  · split
    · exact h
    · exact h.busyAssessment
  · exact h

theorem State.Sound.holdReturn (h : s.Sound k out) : s.holdReturn.Sound k out := h.stopOperation.returnCurrent.select

theorem State.Sound.backoffEnded (h : s.Sound k out) : s.backoffEnded.Sound k out := by
  unfold State.backoffEnded
  split
  · split
    · exact h.holdReturn
    · exact h.request
  · exact h

theorem State.Sound.sampleEnded (h : s.Sound k out) (level : Int) (sampling : s.radio.rx = .sampling) :
    (s.sampleEnded level).Sound k out := by
  obtain ⟨-, none⟩ := h.radio.idle (.inl fun eq => nomatch sampling.symm.trans eq)
  unfold State.sampleEnded
  split
  · have receiving := h.enterReceiving none
    dsimp only
    split
    · exact receiving.busyAssessment
    · exact receiving
  · have released := h.releaseRx_of_none (by rw [none]; rfl)
    dsimp only
    split
    · exact released.grant (.inr nofun)
    · exact released

theorem State.Sound.enterPreamble (h : s.Sound k out) : s.enterPreamble.Sound k out := by
  unfold State.enterPreamble
  refine State.Sound.startWatch ?_
  cases current : s.tu.current with
  | none =>
    refine h.txTimers rfl rfl ?_
    rw [current]
    rfl
  | some x =>
    have kept := h.recountCurrent (y := { x with headTime := none }) current rfl (h.tu.currentFits x current)
    exact kept.txTimers rfl rfl rfl

theorem State.Sound.bodyStart {x : TxEntry} (h : s.Sound k out) (current : s.tu.current = some x) :
    (s.bodyStart x).Sound k out := by
  have stands := h.current_stands current
  have claims := txClaims_some s.tu.urgent s.tu.routine x
  rw [← current] at claims
  exact Holding.withinTx (b := x.buf) (P := x.sendingClaim.2) (Q := x.sendingClaim.2)
    (x := { s.buf x.buf with frame := s.bodyFrame x }) h (stands.taken nofun) stands claims claims h.tu

/-! ## The scan, the self-test and the start-up controller -/

theorem State.Sound.requestScan (h : s.Sound k out) (r : Requester) : (s.requestScan r).Sound k out := by
  unfold State.requestScan
  split
  · exact h
  · exact h

theorem State.Sound.takeUp_of (h : s.Sound k out) (other : s.radio.rx ≠ .receiving ∨ s.radio.owner ≠ .receiveUnit) :
    s.takeUp.Sound k out := h.radioIdle other rfl rfl

theorem State.Sound.listChanged (h : s.Sound k out) : s.listChanged.Sound k out := by
  unfold State.listChanged
  split
  · rename_i owner
    exact h.takeUp_of (.inr fun eq => nomatch owner.symm.trans eq)
  · exact h

theorem State.Sound.sample (h : s.Sound k out) : s.sample.Sound k out := by
  unfold State.sample
  split
  · rename_i off
    exact h.radioIdle (.inl fun eq => nomatch off.1.symm.trans eq) rfl rfl
  · exact h

theorem State.Sound.ledChoose (h : s.Sound k out) : s.ledChoose.Sound k out := by
  rw [State.ledChoose_eq]
  exact h

theorem State.Sound.beginRead (h : s.Sound k out) (number : Nat) (purpose : ReadPurpose) :
    (s.beginRead number purpose).Sound k out := h

theorem State.Sound.becomeInert (h : s.Sound k out) : s.becomeInert.Sound k out := (h.withSc _).ledChoose

theorem State.Sound.recordItem (h : s.Sound k out) (item : Nat) (passed : Bool) : (s.recordItem item passed).Sound k out := by
  unfold State.recordItem
  split
  · exact h.clear ..
  · exact h.raise ..

theorem State.Sound.selfTestNotice (h : s.Sound k out) (set : Option SampleSet) : (s.selfTestNotice set).Sound k out := by
  have recorded : ∀ (items : List Nat) {u : State}, u.Sound k out → (items.foldl (fun t i =>
      t.recordItem i (set.any (fun x => itemPasses t.cfg.lowBattery s.ev x i))) u).Sound k out := fun items => by
    induction items with
    | nil => exact fun h => h
    | cons i items ih => exact fun h => ih (h.recordItem ..)
  exact ((recorded (scanItems s.cfg.role) h).withSv _).beginRead ..

theorem State.Sound.selfTestAnswer (h : s.Sound k out) (good : Bool) : (s.selfTestAnswer good).Sound k out :=
  (h.recordItem 6 good).withSv _

theorem State.Sound.startSelfTest (h : s.Sound k out) : s.startSelfTest.Sound k out := by
  unfold State.startSelfTest
  split
  · exact (h.withSv _).requestScan _
  · exact h

theorem State.Sound.startList (h : s.Sound k out) : s.startList.Sound k out := by
  unfold State.startList
  dsimp only
  refine State.Sound.requestScan (State.Sound.listChanged ?_) _
  exact h.same rfl rfl rfl rfl

theorem State.Sound.readProfileLine (h : s.Sound k out) : s.readProfileLine.Sound k out := by
  unfold State.readProfileLine
  split
  · exact h.profileChange _
  · exact h

theorem State.Sound.endStep3 (h : s.Sound k out) : s.endStep3.Sound k out :=
  ((h.withSc _).restartObservation.requestObservation.startSelfTest).readProfileLine

theorem State.Sound.step3 (h : s.Sound k out) : s.step3.Sound k out := by
  unfold State.step3
  dsimp only
  split
  · exact (h.startList.withSc _).requestScan _
  · exact h.startList.endStep3

theorem State.Sound.learningNotice (h : s.Sound k out) (set : SampleSet) : (s.learningNotice set).Sound k out := by
  unfold State.learningNotice
  split
  · dsimp only
    split
    · exact (h.withSc _).endStep3
    · exact h
  · exact h

theorem State.Sound.readGood (h : s.Sound k out) (r : ReadAttempt) (bytes : List Byte) : (s.readGood r bytes).Sound k out := by
  unfold State.readGood
  split
  · split
    · exact h
    · exact (h.withSc _).becomeInert
  · exact (h.withSc _).selfTestAnswer _

theorem State.Sound.readFailed (h : s.Sound k out) (r : ReadAttempt) : (s.readFailed r).Sound k out := by
  unfold State.readFailed
  split
  · exact h
  · split
    · exact h.becomeInert
    · exact (h.withSc _).selfTestAnswer _

theorem State.Sound.readEnded (h : s.Sound k out) (r : ReadAttempt) (bytes : List Byte) :
    (s.readEnded r bytes).Sound k out := by
  unfold State.readEnded
  dsimp only
  split
  · exact State.Sound.readGood (s := s.stopGuard _) h r bytes
  · exact State.Sound.readFailed (s := s.stopGuard _) h r

theorem State.Sound.askRun (h : s.Sound k out) (q : RunRequest) (c : FaultCode) : (s.askRun q c).Sound k out := by
  unfold State.askRun
  split
  · exact h
  · exact h.raiseOwn c
  · exact h.clearOwn c

theorem State.Sound.batteryWatch (h : s.Sound k out) (v : Nat) : (s.batteryWatch v).Sound k out := by
  unfold State.batteryWatch
  dsimp only
  split
  · split
    · exact (h.withSv _).raiseOwn _
    · exact h
  · split
    · exact h
    · split
      · exact (h.withSv _).clearOwn _
      · exact h

theorem State.Sound.scanCounted (h : s.Sound k out) : s.scanCounted.Sound k out := by
  unfold State.scanCounted
  dsimp only
  split
  · exact (h.withSv _).clearOwn _
  · exact h

theorem State.Sound.runsTake (h : s.Sound k out) (set : SampleSet) :
    ((s.smokeRunTakes set).heatRunTakes set).Sound k out := by
  have smoke : (s.smokeRunTakes set).Sound k out := by
    unfold State.smokeRunTakes
    split
    · exact (h.withMu _).askRun ..
    · exact h
  unfold State.heatRunTakes
  split
  · exact (smoke.withMu _).askRun ..
  · exact smoke

theorem State.Sound.handOn (h : s.Sound k out) (x : Scan) (set : SampleSet) : (s.handOn x set).Sound k out := by
  have evaluated : (if s.isDetector then s.evaluate set else s).Sound k out := by
    split
    · exact h.evaluate set
    · exact h
  have counted := (evaluated.batteryWatch set.v.toNat).scanCounted.runsTake set
  have told : ∀ {u : State}, u.Sound k out → (if x.awaitedLearning then u.learningNotice set else u).Sound k out := fun h => by
    split
    · exact h.learningNotice set
    · exact h
  have learned := told counted
  unfold State.handOn
  dsimp only
  split
  · exact learned.selfTestNotice _
  · exact learned

theorem State.Sound.scanCompleted (h : s.Sound k out) (x : Scan) (d i b t v : Code) :
    (s.scanCompleted x d i b t v).Sound k out :=
  State.Sound.handOn (s := s.latch _) h x _

theorem State.Sound.abandonScan (h : s.Sound k out) : s.abandonScan.Sound k out := by
  unfold State.abandonScan
  split
  · exact h
  · have stalled : State.Sound k out (State.scanAbandoned { s with mu := { s.mu with scan := none } }) :=
      State.Sound.raiseOwn (s := State.count .guardExpired { s with mu := _, sv := _ }) h _
    dsimp only
    split
    · exact stalled.selfTestNotice _
    · exact stalled

/-! ## The schedule -/

theorem State.Sound.beginEntry (h : s.Sound k out) : s.beginEntry.Sound k out := by
  unfold State.beginEntry
  split
  · exact h
  · dsimp only
    split
    · exact h.sample.requestScan _
    · exact h.sample
  · dsimp only
    split
    · exact (h.requestScan _).requestScan _
    · exact h.requestScan _

theorem State.Sound.switchTo (h : s.Sound k out) (l : ActiveList) : (s.switchTo l).Sound k out := (h.withSu _).listChanged

theorem State.Sound.advance (h : s.Sound k out) : s.advance.Sound k out := h

theorem State.Sound.boundaryWork (h : s.Sound k out) : s.boundaryWork.Sound k out := by
  have marked : State.Sound k out { s with sv := { s.sv with selfTestEnded := false } } := h
  unfold State.boundaryWork
  split
  · dsimp only
    split
    · exact h
    · unfold State.quietBoundary
      split
      · exact (marked.switchTo _).beginEntry
      · exact marked.advance.beginEntry
    · unfold State.alertBoundary
      dsimp only
      split
      · exact ((marked.withSu _).switchTo _).beginEntry
      · exact (marked.withSu _).advance.beginEntry
  · split
    · exact h
    · exact h.advance.beginEntry
    · exact h.advance.beginEntry

theorem State.Sound.leaveDoze (h : s.Sound k out) : s.leaveDoze.Sound k out := by
  unfold State.leaveDoze
  split
  · exact h
  · exact h

/-! ## The work of timers, boundaries and presses -/

theorem State.Sound.guardConsequence (h : s.Sound k out) (g : GuardName) : (s.guardConsequence g).Sound k out := by
  have counted : (s.count .guardExpired).Sound k out := h
  cases g with
  | scan => exact h.abandonScan
  | header => exact counted.radioRestart false
  | frame => exact counted.radioRestart false
  | assessment => exact counted.radioRestart false
  | body => exact counted.radioRestart true
  | calibration => exact counted.radioRestart false
  | configRead =>
    unfold State.guardConsequence State.readExpired
    dsimp only
    split
    · exact counted.readFailed _
    · exact h
  | restartWrite =>
    have failed : State.Sound k out { s with sc := { s.sc with write := none, written := none } } := h
    exact ((failed.count .guardExpired).raiseOwn _).step3

theorem State.Sound.supervisionFell (h : s.Sound k out) (a : Addr) : (s.supervisionFell a).Sound k out := by
  unfold State.supervisionFell
  split
  · exact h
  · split
    · exact h
    · split
      · exact (h.withNt _).raise ..
      · dsimp only
        split
        · exact (h.withNt _).select
        · exact h
      · exact h

theorem State.Sound.shortPress (h : s.Sound k out) (t : Us) : (s.shortPress t).Sound k out := by
  refine State.Sound.requestObservation ?_
  unfold State.showStatePattern
  dsimp only
  split
  · exact h
  · exact (h.withLu _).ledChoose

theorem State.Sound.holdEnded (h : s.Sound k out) : s.holdEnded.Sound k out := by
  unfold State.holdEnded
  split
  · exact h
  · exact h.select

theorem State.Sound.heatPush (h : s.Sound k out) : s.heatPush.Sound k out := by
  unfold State.heatPush
  split
  · exact h
  · exact h

theorem State.Sound.perform (h : s.Sound k out) (w : HeldWork) : (s.perform w).Sound k out := by
  cases w with
  | backoffEnd => exact h.backoffEnded
  | relayOffer b => exact h.relayOffer b
  | heatPush => exact h.heatPush
  | observation => exact h.requestObservation
  | refresh => exact h.refreshFire
  | serviceLimit => exact h.serviceEnded
  | holdEnded => exact h.holdEnded
  | supervision a => exact h.supervisionFell a
  | health => exact h.askHealth
  | guardExpired g => exact h.guardConsequence g
  | boundary => exact h.boundaryWork
  | stallEnded => exact h.clearOwn _
  | failedEnded => exact (h.withSv _).clearOwn _
  | reportRetry => exact h.look
  | channelBlocked => exact h.raiseOwn _
  | shortPress t => exact h.shortPress t
  | longPress => exact h.startSelfTest
  | silencePress => exact h.silencePress
  | resetPress => exact h.resetPress
  | profileChange p => exact h.profileChange p

theorem State.Sound.wakeWork (h : s.Sound k out) (w : HeldWork) : (s.wakeWork w).Sound k out := by
  unfold State.wakeWork
  split
  · exact h.perform w
  · exact h.leaveDoze.withSu _

theorem State.Sound.timerWork (h : s.Sound k out) (w : HeldWork) : (s.timerWork w).Sound k out := by
  unfold State.timerWork
  split
  · exact h
  · exact h.perform w

theorem State.Sound.endSettle (h : s.Sound k out) : s.endSettle.Sound k out := by
  have all : ∀ (l : List HeldWork) {u : State}, u.Sound k out → (l.foldl (fun t w => t.perform w) u).Sound k out := fun l => by
    induction l with
    | nil => exact fun h => h
    | cons w l ih => exact fun h => ih (h.perform w)
  exact all s.su.held (h.withSu _)

theorem State.Sound.inputChanged (h : s.Sound k out) (line : InputLine) (level : Bool) :
    (s.inputChanged line level).Sound k out := by
  cases line with
  | test =>
    unfold State.inputChanged State.testChanged
    dsimp only
    split
    · exact h
    · split
      · split
        · exact (h.withLu _).timerWork _
        · exact h
      · exact h
  | profile =>
    unfold State.inputChanged
    dsimp only
    split
    · exact h.timerWork _
    · exact h
  | silence =>
    unfold State.inputChanged
    dsimp only
    split
    · exact h.timerWork _
    · exact h
  | reset =>
    unfold State.inputChanged
    dsimp only
    split
    · exact h.timerWork _
    · exact h

/-! ## Every command -/

/-- A command whose condition fails has no effect (log 3). -/
theorem State.Sound.ite {p : Prop} [Decidable p] {t : State} (h : s.Sound k out) (sound : p → t.Sound k out) :
    (if p then t else s).Sound k out := by
  split
  · rename_i holds
    exact sound holds
  · exact h

/-- A guard's expiry stops it, and its consequence is the work of a wake event (R168). -/
theorem State.Sound.guard {p : Prop} [Decidable p] (h : s.Sound k out) (g : GuardName) :
    (if p then (s.stopGuard g).wakeWork (.guardExpired g) else s).Sound k out :=
  h.ite fun _ => State.Sound.wakeWork (s := s.stopGuard g) h _

theorem State.Sound.released (h : s.Sound k out) : s.released.Sound k out := by
  unfold State.released
  refine State.Sound.ledChoose ?_
  exact h

theorem State.Sound.finish {s0 : State} (h : s.Sound k out) : (State.finish s0 s).Sound k out := by
  have led : (s.ledFollows s0.fu.fires s0.fu.overflow).Sound k out := by
    unfold State.ledFollows
    split
    · exact h
    · exact h.ledChoose
  have lines : (s.ledFollows s0.fu.fires s0.fu.overflow).driveLines.Sound k out := led
  unfold State.finish State.enterDoze
  split
  · exact lines
  · exact lines

/-- Every command but START_UP_RESET keeps the pool sound. -/
theorem exec_sound (c : Instr) (s : State) (hc : ∀ dt, c ≠ .startUpReset dt) (h : s.Sound true []) :
    ∃ t, exec c s = .next (State.finish s t) ∧ t.Sound true [] := by
  have e : (s.elapse c.dt).Sound true [] := h
  cases c with
  | startUpReset dt => exact absurd rfl (hc dt)
  | resetLineRelease dt => exact ⟨_, rfl, e.ite fun _ => e.released⟩
  | configReadAttemptEnd dt attempt bytes =>
    refine ⟨_, rfl, ?_⟩
    dsimp only
    split
    · exact e.readEnded _ _
    · exact e
  | configReadGuardExpiry dt => exact ⟨_, rfl, e.guard .configRead⟩
  | restartCountWriteEnd dt =>
    exact ⟨_, rfl, e.ite fun _ => State.Sound.step3 (State.Sound.stopGuard (e.withSc _) .restartWrite)⟩
  | restartCountWriteGuardExpiry dt => exact ⟨_, rfl, e.guard .restartWrite⟩
  | learningLimitExpiry dt => exact ⟨_, rfl, e.ite fun _ => e.endStep3⟩
  | scanCompletion dt seq d i b t v =>
    refine ⟨_, rfl, ?_⟩
    dsimp only
    split
    · exact e.ite fun _ => e.scanCompleted _ d i b t v
    · exact e
  | scanGuardExpiry dt => exact ⟨_, rfl, e.guard .scan⟩
  | heatTick dt => exact ⟨_, rfl, e.ite fun _ => (e.withEv _).wakeWork _⟩
  | refreshTimerExpiry dt => exact ⟨_, rfl, e.ite fun _ => (e.withDet _).wakeWork _⟩
  | serviceLimitExpiry dt => exact ⟨_, rfl, e.ite fun _ => (e.withDet _).wakeWork _⟩
  | observationTimerExpiry dt =>
    refine ⟨_, rfl, ?_⟩
    dsimp only
    split
    · refine e.ite fun _ => State.Sound.wakeWork ?_ _
      unfold State.startObservationAt State.observationDrawn
      split
      · exact e
      · exact e
    · exact e
  | holdTimerExpiry dt a =>
    refine ⟨_, rfl, ?_⟩
    dsimp only
    split
    · exact e.ite fun _ => (e.withNt _).wakeWork _
    · exact e
  | supervisionExpiry dt a =>
    refine ⟨_, rfl, ?_⟩
    dsimp only
    split
    · exact e.ite fun _ => (e.withNt _).wakeWork _
    · exact e
  | channelSampleEnd dt level => exact ⟨_, rfl, e.ite fun due => e.sampleEnded level due.1⟩
  | preambleDetection dt =>
    refine ⟨_, rfl, e.ite fun listening => e.enterReceiving ?_⟩
    exact (e.radio.idle (.inl fun eq => nomatch listening.symm.trans eq)).2
  | delimiterFound dt level => exact ⟨_, rfl, e.ite fun waits => e.delimiter level waits⟩
  | delimiterWaitLimit dt => exact ⟨_, rfl, e.ite fun waits => e.waitEnded waits.1⟩
  | levelLost dt => exact ⟨_, rfl, e.ite fun waits => e.waitEnded waits⟩
  | kindByteArrival dt b0 b1 kind =>
    refine ⟨_, rfl, ?_⟩
    dsimp only
    split
    · rename_i r taking
      exact e.ite fun early => e.kindByte taking early
    · exact e
  | seventhHeaderByte dt flags a0 a1 len =>
    refine ⟨_, rfl, ?_⟩
    dsimp only
    split
    · rename_i r taking
      exact e.ite fun _ => e.headerEnd taking _ len
    · exact e
  | frameEnd dt rest =>
    refine ⟨_, rfl, ?_⟩
    dsimp only
    split
    · rename_i r taking
      exact e.ite fun _ => e.receptionEnd taking rest
    · exact e
  | carrierLostBeforeKind dt =>
    refine ⟨_, rfl, ?_⟩
    dsimp only
    split
    · rename_i r taking
      refine e.ite fun early => State.Sound.discardEnded (s := (s.elapse dt).count .rxFormat) e ?_
      rw [show ((s.elapse dt).count .rxFormat).radio.reception = some r from taking]
      cases buf : r.buf with
      | none => exact buf
      | some b => exact absurd early (e.reception_stands taking buf).2.2
    · exact e
  | headerGuardExpiry dt => exact ⟨_, rfl, e.guard .header⟩
  | frameGuardExpiry dt => exact ⟨_, rfl, e.guard .frame⟩
  | calibrationCompletion dt begun =>
    refine ⟨_, rfl, e.ite fun calibrating => ?_⟩
    have owner : (s.elapse dt).radio.owner = .heldOff := of_decide_eq_true (Bool.and_eq_true_iff.1 calibrating).1
    have free : State.Sound true [] { s.elapse dt with radio := { (s.elapse dt).radio with owner := .none } } :=
      e.radioIdle (.inr fun eq => nomatch owner.symm.trans eq) rfl rfl
    exact (State.Sound.takeUp_of (State.Sound.stopGuard free .calibration) (.inr nofun)).select
  | calibrationGuardExpiry dt => exact ⟨_, rfl, e.guard .calibration⟩
  | backoffEnd dt =>
    refine ⟨_, rfl, e.ite fun _ => State.Sound.wakeWork ?_ _⟩
    exact e
  | assessmentEnd dt level =>
    refine ⟨_, rfl, e.ite fun _ => ?_⟩
    split
    · exact e.enterPreamble
    · exact (State.Sound.releaseTu (s := (s.elapse dt).stopGuard .assessment) e).busyAssessment
  | assessmentGuardExpiry dt => exact ⟨_, rfl, e.guard .assessment⟩
  | preambleEnd dt =>
    refine ⟨_, rfl, e.ite fun _ => ?_⟩
    split
    · exact e.holdReturn
    · split
      · rename_i x current
        exact e.bodyStart current
      · exact e
  | bodyEnd dt =>
    refine ⟨_, rfl, ?_⟩
    dsimp only
    split
    · rename_i x current
      exact e.ite fun _ => e.bodyEnded current
    · exact e
  | bodyGuardExpiry dt => exact ⟨_, rfl, e.guard .body⟩
  | channelBlockedWatchExpiry dt =>
    refine ⟨_, rfl, ?_⟩
    dsimp only
    split
    · refine e.ite fun _ => State.Sound.timerWork ?_ _
      exact e
    · exact e
    · exact e
  | relayWaitEnd dt buf =>
    refine ⟨_, rfl, ?_⟩
    dsimp only
    split
    · exact e.ite fun _ => (e.endRelayWait buf).wakeWork _
    · exact e
  | profileRefreshTimerExpiry dt => 
    refine ⟨_, rfl, e.ite fun _ => State.Sound.profileRefreshed ?_⟩
    exact e
  | entryBoundary dt => exact ⟨_, rfl, e.ite fun _ => (e.withSu _).wakeWork _⟩
  | startUpWindowExpiry dt => exact ⟨_, rfl, e.ite fun _ => e⟩
  | alertHoldExpiry dt =>
    refine ⟨_, rfl, ?_⟩
    dsimp only
    split
    · exact e.ite fun _ => e
    · exact e
    · exact e
  | alertCommitmentExpiry dt => exact ⟨_, rfl, e.ite fun _ => e⟩
  | scheduledLeave dt => exact ⟨_, rfl, e.ite fun _ => e.leaveDoze⟩
  | settleEnd dt => exact ⟨_, rfl, e.ite fun _ => e.endSettle⟩
  | stallTimerExpiry dt => exact ⟨_, rfl, e.ite fun _ => (e.withSv _).timerWork _⟩
  | failedTimerExpiry dt => exact ⟨_, rfl, e.ite fun _ => (e.withSv _).timerWork _⟩
  | reportRetryTimerExpiry dt => exact ⟨_, rfl, e.ite fun _ => (e.withFaults _).timerWork _⟩
  | healthTimerExpiry dt => exact ⟨_, rfl, e.ite fun _ => (e.withSv _).wakeWork _⟩
  | inputEdge dt line =>
    refine ⟨_, rfl, ?_⟩
    dsimp only
    split
    · exact (e.withLu _).leaveDoze
    · exact e
  | debounceEnd dt line =>
    refine ⟨_, rfl, e.ite fun _ => ?_⟩
    split
    · exact e
    · dsimp only
      split
      · exact (e.withLu _).inputChanged _ _
      · exact e
  | longPress dt => exact ⟨_, rfl, e.ite fun _ => (e.withLu _).timerWork _⟩
  | ledPeriodStart dt =>
    refine ⟨_, rfl, e.ite fun _ => ?_⟩
    unfold State.ledPeriod
    split
    · exact e
    · exact e
  | statePatternEnd dt => exact ⟨_, rfl, e.ite fun _ => e⟩
  | statusRecordSent dt => exact ⟨_, rfl, e.ite fun _ => e⟩

/-- Every step keeps the pool sound (R109, R110, R112, R117, R136, R140, R148). -/
theorem step_keeps_poolSound {s t : State} (hs : s.PoolSound) (h : step s = .next t) : t.PoolSound := by
  rcases step_cases h with rfl | ⟨c, rest, _, run⟩
  · exact hs
  · have stood : s.Sound true [] := State.poolSound_iff.1 hs
    have sound : (s.withPending rest).Sound true [] := stood
    by_cases reset : ∃ dt, c = .startUpReset dt
    · obtain ⟨dt, rfl⟩ := reset
      rw [← Host.Outcome.next.inj run]
      exact State.afterReset_poolSound ..
    · obtain ⟨u, eq, kept⟩ := exec_sound c _ (fun dt k => reset ⟨dt, k⟩) sound
      rw [← Host.Outcome.next.inj (eq.symm.trans run)]
      exact State.poolSound_iff.2 kept.finish

/-- Settles O59, by the ranges that every command's effect keeps and the soundness of the pool that every operation keeps. -/
theorem rangesKept : Obligations.RangesKept :=
  ⟨fun _ _ => step_keeps_inRange, fun _ _ => step_keeps_poolSound⟩

end Sys2Proof.Machine
end

section
/-! SUPPORT. The end of a frame being taken: what it leaves, its validation and its dispatch (R94, R105, R106, R111, R141, R142). -/
namespace Sys2Proof.Machine

/-- The state a frame end leaves before the frame is judged (R105): the radio released, both receive guards stopped. -/
def State.frameReleased (s : State) : State := ((s.stopGuard .header).stopGuard .frame).releaseRx

theorem State.frame_setFrame (b : Fin 8) (f : List Byte) (s : State) : ((s.setFrame b f).buf b).frame = f := by
  rw [State.setFrame, State.buf_setBuf, if_pos rfl]

theorem State.frameEnded_invalid {b : Fin 8} {level : Int} {taken : Nat} {k : Counter} {s : State}
    (invalid : validate s.cfg taken (s.buf b).frame = some k) :
    s.frameEnded b level taken = (s.frameReleased.count k).freeAll [b] := by
  rw [State.frameEnded, invalid]
  rfl

theorem State.frameEnded_valid {b : Fin 8} {level : Int} {taken : Nat} {s : State}
    (valid : validate s.cfg taken (s.buf b).frame = none) : s.frameEnded b level taken = s.frameReleased.dispatch b level := by
  rw [State.frameEnded, valid]
  rfl

/-- The bytes that end a frame are added before it is judged (R105). -/
theorem State.receptionEnd_claimed {r : Reception} {b : Fin 8} {rest : List Byte} {s : State} (buf : r.buf = some b) :
    s.receptionEnd r rest = (s.setFrame b ((s.buf b).frame ++ frameRest r.bodyLen rest)).frameEnded b r.level
      (bytesTaken r.bodyLen rest) := by
  rw [State.receptionEnd, buf]

/-- A frame cut off in its header is not whole (R94). -/
theorem validate_cut (c : ConfigRecord) (f : List Byte) : validate c 0 f = some .rxFormat := by
  rw [validate, if_pos]
  rintro ⟨-, -, taken⟩
  omega

theorem exec_frameEnd {dt : Us} {rest : List Byte} {r : Reception} {s : State} (taking : s.radio.reception = some r)
    (latched : r.latch ≠ []) :
    exec (.frameEnd dt rest) s = .next (State.finish s ((s.elapse dt).receptionEnd r rest)) := by
  change execFrameEnd dt rest s = _
  refine State.event_eq ?_
  have taking : (s.elapse dt).radio.reception = some r := taking
  simp only [taking, if_pos latched]

/-- The epoch of an accepted FIRE, SILENCE or RESET is judged (R142). -/
theorem epochJudged_iff {k : Byte} : epochJudged k = true ↔ k = 2 ∨ k = 3 ∨ k = 4 := by
  revert k
  decide

theorem older_iff_ahead {a b : BitVec 8} : older a b = true ↔ 128 ≤ (a - b).toNat := by
  simp only [older, decide_eq_true_eq]
  bv_omega

theorem State.acceptFlood_newer {b : Fin 8} {s : State} (judged : epochJudged (Frame.kind (s.buf b).frame) = true)
    (ahead : newer (Frame.epoch (s.buf b).frame) s.fu.epoch = true) : s.acceptFlood b =
      ((s.resetActions (Frame.epoch (s.buf b).frame) (Frame.origin (s.buf b).frame)
        (Frame.originZone (s.buf b).frame)).kindAction (s.buf b).frame).relay b := by
  rw [State.acceptFlood]
  rw [if_pos judged, if_pos ahead]

theorem State.acceptFlood_older {b : Fin 8} {s : State} (judged : epochJudged (Frame.kind (s.buf b).frame) = true)
    (behind : older (Frame.epoch (s.buf b).frame) s.fu.epoch = true) : s.acceptFlood b = (s.count .rxStale).freeAll [b] := by
  rw [State.acceptFlood]
  rw [if_pos judged, if_neg (by rw [older_not_newer behind]; nofun), if_pos behind]

theorem State.acceptFlood_same {b : Fin 8} {s : State} (same : epochJudged (Frame.kind (s.buf b).frame) = true →
      newer (Frame.epoch (s.buf b).frame) s.fu.epoch = false ∧ older (Frame.epoch (s.buf b).frame) s.fu.epoch = false) :
    s.acceptFlood b = (s.kindAction (s.buf b).frame).relay b := by
  rw [State.acceptFlood]
  split
  · rename_i judged
    obtain ⟨newer, older⟩ := same judged
    rw [newer, older]
    rfl
  · rfl

/-- Settles O30: the frame end in its cases, what an invalid frame reaches, and the dispatch to table and flood unit. -/
theorem frameEnd : Obligations.FrameEnd := by
  refine ⟨fun dt rest r s taking latched => ?_, fun dt rest r len b s taking latched buf bodyLen invalid => ?_,
    fun b level s => ⟨fun kind => ?_, fun kind => ?_⟩, fun b s => ?_⟩
  · have run := exec_frameEnd (dt := dt) (rest := rest) taking latched
    refine ⟨fun buf => ?_, fun b len buf bodyLen => ⟨fun k invalid => ?_, fun valid => ?_⟩, fun b buf bodyLen => ?_⟩
    · rw [run, State.receptionEnd, buf]
      rfl
    · rw [run, State.receptionEnd_claimed buf, bodyLen, State.frameEnded_invalid (k := k)]
      · rfl
      · rw [State.frame_setFrame]
        exact invalid
    · rw [run, State.receptionEnd_claimed buf, bodyLen, State.frameEnded_valid]
      · rfl
      · rw [State.frame_setFrame]
        exact valid
    · rw [run, State.receptionEnd_claimed buf, bodyLen, State.frameEnded_invalid (taken := bytesTaken none rest) (validate_cut _ _)]
      rfl
  · rw [exec_frameEnd taking latched, State.receptionEnd_claimed buf, bodyLen]
    cases judged : validate s.cfg (rest.take (len.toNat + 2)).length ((s.buf b).frame ++ rest.take (len.toNat + 2)) with
    | none => exact absurd judged invalid
    | some k =>
      rw [State.frameEnded_invalid (k := k) (by rw [State.frame_setFrame]; exact judged)]
      have kept := State.freeAll_frame [b] ((((s.elapse dt).setFrame b ((s.buf b).frame ++
        rest.take (len.toNat + 2))).frameReleased).count k)
      have same : (s.elapse dt).SameDetection _ := { kept.sameDetection with }
      refine ⟨_, rfl, same.finish, ?_, ?_, ?_, ?_, ?_⟩
      · rw [State.finish_fu]
        exact kept.run
      · rw [State.finish_su_list]
        exact congrArg Su.list kept.su
      · rw [State.finish_faults]
        exact kept.faults
      · rw [State.finish_sv]
        exact kept.sv
      · rw [State.finish_lu_remote]
        exact congrArg Lu.remote kept.lu
  · rw [State.dispatch]
    dsimp only
    rw [if_pos (show Frame.kind (s.buf b).frame = kindObservation from kind)]
    rfl
  · rw [State.dispatch]
    dsimp only
    rw [if_neg (show ¬ Frame.kind (s.buf b).frame = kindObservation from kind)]
    rfl
  · intro f judged ahead
    have own : judged ↔ epochJudged (Frame.kind f) = true := epochJudged_iff.symm
    refine ⟨fun is low high => ?_, fun is far => ?_, fun other => ?_⟩
    · exact State.acceptFlood_newer (own.1 is) (decide_eq_true ⟨low, high⟩)
    · exact State.acceptFlood_older (own.1 is) (older_iff_ahead.2 far)
    · refine State.acceptFlood_same fun is => ?_
      obtain other | zero := other
      · exact absurd (own.2 is) other
      · rw [← Bool.not_eq_true, ← Bool.not_eq_true, older_iff_ahead]
        have zero : (Frame.epoch (s.buf b).frame - s.fu.epoch).toNat = 0 := zero
        refine ⟨fun new => ?_, by omega⟩
        have := (of_decide_eq_true new).1
        omega

end Sys2Proof.Machine
end

section
/-! SUPPORT. What the freeing of buffers with the service of the waiters leaves of radio, guards, counters and waiters (R109,
R112, R139); and what a busy assessment does (R122, R123). -/
namespace Sys2Proof.Machine

/-! ## What serving leaves -/

/-- What offers, originations and the service of the waiters leave: a radio that the transmit unit does not own, a stopped
assessment guard, an operation that is no channel access, every counter but TX-PREEMPTED unless a HEALTH waits, and none but
those who waited still wait. -/
structure State.Serves (s t : State) : Prop where
  radio : s.radio.owner ≠ .tu → t.radio = s.radio
  assessment : s.guards.assessment = none → t.guards.assessment = none
  phase : s.tu.phase = .idle ∨ s.tu.phase = .backoff → t.tu.phase = .idle ∨ t.tu.phase = .backoff
  counters : s.fu.pendingHealth = false →
    t.fu.pendingHealth = false ∧ ∀ c, c ≠ .txPreempted → t.counter c = s.counter c
  waiters : t.fu.waiters ⊆ s.fu.waiters
  waits : t.fu.relayWaits ⊆ s.fu.relayWaits

theorem State.Serves.refl (s : State) : s.Serves s :=
  ⟨fun _ => rfl, id, id, fun h => ⟨h, fun _ _ => rfl⟩, fun _ => id, fun _ => id⟩

theorem State.Serves.trans {s t u : State} (h : s.Serves t) (k : t.Serves u) : s.Serves u where
  radio := fun owner => (k.radio (by rw [h.radio owner]; exact owner)).trans (h.radio owner)
  assessment := k.assessment ∘ h.assessment
  phase := k.phase ∘ h.phase
  counters := fun none =>
    have ⟨none', counters⟩ := h.counters none
    have ⟨none'', counters'⟩ := k.counters none'
    ⟨none'', fun c hc => (counters' c hc).trans (counters c hc)⟩
  waiters := fun _ => @h.waiters _ ∘ @k.waiters _
  waits := fun _ => @h.waits _ ∘ @k.waits _

/-- A change of pool and transmit unit, its phase aside, and of other blocks. -/
theorem State.Serves.of_eq {s t : State} (radio : t.radio = s.radio) (guards : t.guards = s.guards)
    (phase : t.tu.phase = s.tu.phase) (counters : t.counters = s.counters) (fu : t.fu = s.fu) : s.Serves t := by
  refine ⟨fun _ => radio, ?_, ?_, ?_, ?_, ?_⟩
  · rw [guards]
    exact id
  · rw [phase]
    exact id
  · rw [fu]
    exact fun none => ⟨none, fun c _ => by rw [State.counter, State.counter, counters]⟩
  · rw [fu]
    exact fun _ => id
  · rw [fu]
    exact fun _ => id

theorem State.takeEntry_serves (e : TxEntry) (s : State) : s.Serves (s.takeEntry e) :=
  ⟨fun _ => rfl, id, fun _ => .inr rfl, fun none => ⟨none, fun _ _ => rfl⟩, fun _ => id, fun _ => id⟩

theorem State.select_serves (s : State) : s.Serves s.select := by
  unfold State.select
  split
  · split
    · rename_i e rest _
      exact .trans (t := { s with tu := { s.tu with urgent := rest } }) (.of_eq rfl rfl rfl rfl rfl)
        (State.takeEntry_serves e _)
    · split
      · rename_i e rest _
        split
        · exact .refl s
        · exact .trans (t := { s with tu := { s.tu with routine := rest } }) (.of_eq rfl rfl rfl rfl rfl)
            (State.takeEntry_serves e _)
      · exact .refl s
  · exact .refl s

theorem State.stopOperation_serves (s : State) : s.Serves s.stopOperation := by
  unfold State.stopOperation State.releaseTu
  split
  · rename_i owner
    exact ⟨fun other => absurd owner other, fun _ => rfl, fun _ => .inl rfl, fun none => ⟨none, fun _ _ => rfl⟩,
      fun _ => id, fun _ => id⟩
  · exact ⟨fun _ => rfl, fun _ => rfl, fun _ => .inl rfl, fun none => ⟨none, fun _ _ => rfl⟩, fun _ => id, fun _ => id⟩

theorem State.returnCurrent_serves (s : State) : s.Serves s.returnCurrent := by
  unfold State.returnCurrent
  split
  · exact .refl s
  · dsimp only
    split
    · exact .of_eq rfl rfl rfl rfl rfl
    · exact .of_eq rfl rfl rfl rfl rfl

theorem State.preempt_serves (s : State) : s.Serves s.preempt := by
  unfold State.preempt
  split
  · refine (s.stopOperation_serves.trans (State.returnCurrent_serves _)).trans ?_
    exact ⟨fun _ => rfl, id, id, fun none => ⟨none, fun c other => (State.counter_count _ _ _).trans (if_neg other)⟩,
      fun _ => id, fun _ => id⟩
  · exact .refl s

theorem State.startWatch_serves (s : State) : s.Serves s.startWatch := by
  unfold State.startWatch
  split
  · split
    · exact .of_eq rfl rfl rfl rfl rfl
    · split
      · exact .of_eq rfl rfl rfl rfl rfl
      · exact .refl s
  · exact .refl s

theorem State.accept_serves (b : Fin 8) (mark : OriginMark) (c : FrameClass) (s : State) : s.Serves (s.accept b mark c) := by
  cases c with
  | urgent =>
    have queued : s.Serves (s.queueUrgent b mark) := .of_eq rfl rfl rfl rfl rfl
    exact ((queued.trans (State.preempt_serves _)).trans (State.select_serves _)).trans (State.startWatch_serves _)
  | routine =>
    have queued : s.Serves (s.queueRoutine b mark) := .of_eq rfl rfl rfl rfl rfl
    exact queued.trans (State.select_serves _)

/-- An origination other than a HEALTH takes the next sequence, and of the counters none (R137, R183). -/
theorem State.recordOwn_serves {o : OwnFrame} (other : o ≠ .health) (s : State) : s.Serves (s.recordOwn o) := by
  unfold State.recordOwn
  split
  · exact .refl s
  · rw [if_neg other]
    exact ⟨fun _ => rfl, id, id, fun none => ⟨none, fun _ _ => rfl⟩, fun _ => id, fun _ => id⟩

theorem State.originateBare_serves {o : OwnFrame} {s t : State} (made : s.originateBare o = some t) (other : o ≠ .health) :
    s.Serves t := by
  obtain ⟨-, b, -, rfl⟩ := State.originateBare_some made
  refine State.Serves.trans (State.Serves.trans (t := s.setBuf b
    { state := .queued, cls := some o.cls, frame := s.composeOwn o, level := none }) ?_ (State.recordOwn_serves other _))
    (State.accept_serves _ _ _ _)
  exact .of_eq rfl rfl rfl rfl rfl

theorem State.recount_serves (s : State) : s.Serves s.recount := by
  have flagged : s.Serves s.flagged := .of_eq rfl rfl rfl rfl rfl
  obtain eq | ⟨b, -, -, eq⟩ := State.recount_cases s
  · rw [eq]
    exact flagged
  · rw [eq]
    refine flagged.trans (State.Serves.trans (t := s.flagged.observationIn b) ?_ (State.accept_serves _ _ _ _))
    exact .of_eq rfl rfl rfl rfl rfl

theorem State.originate_serves {o : OwnFrame} {s t : State} (made : s.originate o = some t) (other : o ≠ .health) :
    s.Serves t := by
  obtain ⟨u, bare, rfl⟩ := State.originate_eq_some made
  exact (State.originateBare_serves bare other).trans (State.recount_serves u)

theorem State.dropRelayWait_serves (b : Fin 8) (s : State) : s.Serves (s.dropRelayWait b) := by
  unfold State.dropRelayWait
  split
  · exact ⟨fun _ => rfl, id, id, fun none => ⟨none, fun _ _ => rfl⟩, fun _ => List.mem_of_mem_erase,
      fun _ hw => (List.mem_filter.1 hw).1⟩
  · exact .refl s

theorem State.dropWaiter_serves (w : Waiter) (s : State) : s.Serves (s.dropWaiter w) :=
  ⟨fun _ => rfl, id, id, fun none => ⟨none, fun _ _ => rfl⟩, fun _ => List.mem_of_mem_erase, fun _ => id⟩

/-- An own urgent waiter tried (R139). -/
theorem State.serveOwn_serves {w : Waiter} {o : OwnFrame} {s : State} (other : o ≠ .health) :
    s.Serves (match s.originate o with
      | some t => t.dropWaiter w
      | none => s) := by
  split
  · rename_i t made
    exact (State.originate_serves made other).trans (State.dropWaiter_serves w t)
  · exact .refl s

theorem State.serveOne_serves (w : Waiter) (s : State) : s.Serves (s.serveOne w) := by
  cases w with
  | relay b =>
    unfold State.serveOne
    dsimp only
    split
    · exact (State.dropRelayWait_serves b s).trans (State.accept_serves _ _ _ _)
    · exact .refl s
  | fire c e => exact State.serveOwn_serves nofun
  | silence => exact State.serveOwn_serves nofun
  | reset e => exact State.serveOwn_serves nofun

theorem State.serveAll_serves (l : List Waiter) (s : State) : s.Serves (l.foldl State.serveOne s) := by
  induction l generalizing s with
  | nil => exact .refl s
  | cons w l ih => exact (State.serveOne_serves w s).trans (ih _)

theorem State.serveProfile_serves (s : State) : s.Serves s.serveProfile := by
  unfold State.serveProfile
  split
  · split
    · rename_i t made
      refine (State.originate_serves made nofun).trans ?_
      exact ⟨fun _ => rfl, id, id, fun none => ⟨none, fun _ _ => rfl⟩, fun _ => id, fun _ => id⟩
    · exact .refl s
  · exact .refl s

theorem State.originate_phase {o : OwnFrame} {s t : State} (made : s.originate o = some t)
    (still : s.tu.phase = .idle ∨ s.tu.phase = .backoff) : t.tu.phase = .idle ∨ t.tu.phase = .backoff := by
  obtain ⟨u, bare, rfl⟩ := State.originate_eq_some made
  obtain ⟨-, b, -, rfl⟩ := State.originateBare_some bare
  refine (State.recount_serves _).phase ((State.accept_serves _ _ _ _).phase ?_)
  rw [(State.recordOwn_keeps o _).2]
  exact still

/-- The pending HEALTH takes the counters; the rest is as with every origination (R139, R183). -/
theorem State.serveHealth_serves (s : State) : s.Serves s.serveHealth := by
  unfold State.serveHealth
  split
  · rename_i pending
    split
    · rename_i t made
      obtain ⟨radio, guards, -⟩ := State.originate_routine made rfl
      have fu := (State.originate_flood made nofun).1
      have phase := State.originate_phase made
      refine ⟨fun _ => radio, fun none => (congrArg Guards.assessment guards).trans none, phase,
        fun none => absurd (none.symm.trans pending) nofun, fun w => ?_, fun w => ?_⟩
      · dsimp only
        rw [fu]
        exact id
      · dsimp only
        rw [fu]
        exact id
    · exact .refl s
  · exact .refl s

theorem State.serveWaiters_serves (s : State) : s.Serves s.serveWaiters :=
  ((State.serveAll_serves _ s).trans (State.serveProfile_serves _)).trans (State.serveHealth_serves _)

theorem State.freeBuf_serves (b : Fin 8) (s : State) : s.Serves (s.freeBuf b) := by
  refine State.Serves.trans (t := s.setBuf b .empty) ?_ (State.recount_serves _)
  exact .of_eq rfl rfl rfl rfl rfl

theorem State.freeAll_serves (bs : List (Fin 8)) (s : State) : s.Serves (s.freeAll bs) := by
  have freed : ∀ (bs : List (Fin 8)) (u : State), u.Serves (bs.foldl (fun t b => t.freeBuf b) u) := fun bs => by
    induction bs with
    | nil => exact fun u => .refl u
    | cons b bs ih => exact fun u => (State.freeBuf_serves b u).trans (ih _)
  unfold State.freeAll
  split
  · exact .refl s
  · exact (freed bs s).trans (State.serveWaiters_serves _)

/-! ## A buffer freed (R109, R112) -/

theorem countP_or_eq_add_count {α : Type} [DecidableEq α] {p : α → Bool} {b : α} (other : p b = false) (l : List α) :
    l.countP (fun c => decide (c = b) || p c) = l.countP p + l.count b := by
  induction l with
  | nil => rfl
  | cons x l ih =>
    by_cases eq : x = b
    · subst eq
      simp [other, ih]
      omega
    · simp only [List.countP_cons, ih, decide_eq_false eq, Bool.false_or, List.count_cons_of_ne eq]
      omega

theorem Pool.freeCount_free {p : Pool} {b : Fin 8} (taken : (p.get b).state ≠ .free) :
    (p.put b .empty).freeCount = p.freeCount + 1 := by
  have sum := countP_or_eq_add_count (p := fun c => decide ((p.get c).state = .free)) (decide_eq_false taken) (List.finRange 8)
  rw [count_finRange_eight] at sum
  refine Eq.trans (List.countP_congr fun c _ => ?_) sum
  rw [Pool.get_put]
  split
  · rename_i eq
    simp [eq, Buffer.empty]
  · rename_i other
    simp [other]

/-- Where the busy flag is not raised by it, a freed buffer lowers the flag at 5 FREE and brings nothing else. -/
theorem State.freeBuf_eq {b : Fin 8} {s : State} (taken : (s.buf b).state ≠ .free)
    (quiet : s.pool.busy = true ∨ 3 ≤ s.pool.freeCount) : s.freeBuf b = { s with pool := {
      bufs := s.pool.bufs.set b.val .empty
      busy := s.pool.busy && decide (s.pool.freeCount < 4) } } := by
  have count : (s.setBuf b .empty).pool.freeCount = s.pool.freeCount + 1 := Pool.freeCount_free taken
  have flag : busyAfter (s.setBuf b .empty).pool.busy (s.setBuf b .empty).pool.freeCount =
      (s.pool.busy && decide (s.pool.freeCount < 4)) := by
    rw [count, show (s.setBuf b .empty).pool.busy = s.pool.busy from rfl, busyAfter]
    cases busy : s.pool.busy with
    | true =>
      simp
      omega
    | false =>
      have : 3 ≤ s.pool.freeCount := quiet.resolve_left (by rw [busy]; nofun)
      simp
      omega
  rw [State.freeBuf, State.recount]
  dsimp only
  rw [flag]
  cases busy : s.pool.busy with
  | true =>
    have : (s.setBuf b .empty).pool.busy = true := busy
    rw [this, if_neg (by simp)]
    rfl
  | false =>
    rw [Bool.false_and, Bool.false_and, if_neg nofun]
    rfl

/-- A buffer freed alone, whose freeing raises no flag. -/
theorem State.freeAll_one {b : Fin 8} {s : State} (taken : (s.buf b).state ≠ .free)
    (quiet : s.pool.busy = true ∨ 3 ≤ s.pool.freeCount) : s.freeAll [b] = State.serveWaiters { s with pool := {
      bufs := s.pool.bufs.set b.val .empty
      busy := s.pool.busy && decide (s.pool.freeCount < 4) } } := by
  rw [State.freeAll, List.foldl_cons, List.foldl_nil, State.freeBuf_eq taken quiet]
  nofun

/-- With none waiting nothing is served. -/
theorem State.serveWaiters_none {s : State} (waiters : s.fu.waiters = []) (profile : s.fu.pendingProfile = none)
    (health : s.fu.pendingHealth = false) : s.serveWaiters = s := by
  rw [State.serveWaiters, waiters, List.foldl_nil, State.serveProfile, profile]
  dsimp only
  rw [State.serveHealth, if_neg (by rw [health]; nofun)]

/-! ## An urgent offer's entry and buffer -/

theorem State.select_places {s : State} {b : Fin 8} (h : (s.buf b).state = .queued ∨ (s.buf b).state = .sending) :
    (s.select.buf b).state = .queued ∨ (s.select.buf b).state = .sending := by
  have taken : ∀ (e : TxEntry) (tu : Tu), ((State.takeEntry e { s with tu := tu }).buf b).state = .queued ∨
      ((State.takeEntry e { s with tu := tu }).buf b).state = .sending := fun e tu => by
    rw [State.takeEntry_buf]
    split
    · exact .inr rfl
    · exact h
  unfold State.select
  split
  · split
    · exact taken _ _
    · split
      · split
        · exact h
        · exact taken _ _
      · exact h
  · exact h

/-- A buffer offered stands QUEUED or SENDING. -/
theorem State.accept_places (b : Fin 8) (mark : OriginMark) (c : FrameClass) (s : State) :
    ((s.accept b mark c).buf b).state = .queued ∨ ((s.accept b mark c).buf b).state = .sending := by
  have queued : ((s.moveBuf b .queued).buf b).state = .queued := by rw [State.state_moveBuf, if_pos rfl]
  cases c with
  | urgent =>
    rw [State.accept_urgent, State.startWatch_buf]
    refine State.select_places (.inl ?_)
    obtain eq | ⟨e, -, -, buf, -⟩ := State.preempt_cases (s.queueUrgent b mark)
    · rw [eq]
      exact queued
    · rw [buf, State.state_moveBuf]
      split
      · rfl
      · exact queued
  | routine =>
    rw [State.accept_routine]
    exact State.select_places (.inl queued)

/-- A buffer offered keeps its frame. -/
theorem State.accept_keeps_frame (b : Fin 8) (mark : OriginMark) (c : FrameClass) (s : State) :
    ((s.accept b mark c).buf b).frame = (s.buf b).frame := by
  have taken : ((s.moveBuf b .queued).buf b).state ≠ .free := by rw [State.state_moveBuf, if_pos rfl]; nofun
  have frame := State.frame_moveBuf b b .queued s
  cases c with
  | urgent =>
    have after := (((State.preempt_offers (s.queueUrgent b mark)).trans (State.select_offers _).toOffers).trans
      (State.startWatch_offers _).toOffers).frames b taken
    exact after.2.2.1.trans frame
  | routine => exact ((State.select_offers (s.queueRoutine b mark)).frames b taken).2.2.1.trans frame

/-- An urgent offer's entry stands among the urgent ones. -/
theorem State.accept_urgent_entry (b : Fin 8) (mark : OriginMark) (s : State) :
    ∃ x ∈ (s.accept b mark .urgent).tu.current.toList ++ (s.accept b mark .urgent).tu.urgent, x.buf = b ∧ x.mark = mark := by
  have queued : ∃ x ∈ (s.queueUrgent b mark).preempt.tu.urgent, x.buf = b ∧ x.mark = mark := by
    rw [(State.preempt_urgent_watch _).1]
    exact ⟨_, List.mem_append_right _ List.mem_cons_self, rfl, rfl⟩
  rw [State.accept_urgent]
  generalize (s.queueUrgent b mark).preempt = u at queued
  have selected : ∃ x ∈ u.select.tu.current.toList ++ u.select.tu.urgent, x.buf = b ∧ x.mark = mark := by
    obtain ⟨x, mem, rest⟩ := queued
    by_cases can : u.CanSelect
    · cases queue : u.tu.urgent with
      | nil =>
        rw [queue] at mem
        cases mem
      | cons e l =>
        rw [State.select_urgent can queue]
        exact ⟨x, (queue ▸ mem : x ∈ e :: l), rest⟩
    · rw [State.select_of_not can]
      exact ⟨x, List.mem_append_right _ mem, rest⟩
  obtain ⟨x, mem, buf, marked⟩ := selected
  generalize u.select = v at mem
  unfold State.startWatch
  split
  · split
    · rw [List.mem_append, Option.mem_toList] at mem
      obtain current | queued := mem
      · exact ⟨{ x with headTime := some v.ms }, List.mem_append_left _ (by simp [Option.mem_def.1 current]), buf, marked⟩
      · exact ⟨x, List.mem_append_right _ queued, buf, marked⟩
    · split
      · rename_i e l queue
        rw [queue, List.mem_append, List.mem_cons] at mem
        obtain current | rfl | rest := mem
        · exact ⟨x, List.mem_append_left _ current, buf, marked⟩
        · exact ⟨{ x with headTime := some v.ms }, List.mem_append_right _ List.mem_cons_self, buf, marked⟩
        · exact ⟨x, List.mem_append_right _ (List.mem_cons_of_mem _ rest), buf, marked⟩
      · exact ⟨x, mem, buf, marked⟩
  · exact ⟨x, mem, buf, marked⟩

/-- In a sound pool a buffer that is out is offered as one without an entry. -/
theorem State.Sound.offersUrgent {k : Bool} {out : List Claim} {s : State} {b : Fin 8} {P : Buffer → Prop}
    (h : s.Sound k ((b, P) :: out)) (cls : (s.buf b).cls = some .urgent) : s.OffersUrgent b where
  cls := cls
  current := fun x current eq => by
    have apart := (List.nodup_cons.1 h.backs.onePlace).1
    refine apart (List.mem_map.2 ⟨x.sendingClaim, ?_, eq⟩)
    refine List.mem_append_right _ (List.mem_append_left _ ?_)
    rw [current]
    simp [txClaims]
  urgent := fun x mem => (h.backs.kept (x.queuedClaim .urgent) (List.mem_append_right _ (List.mem_append_left _
    (List.mem_append_left _ (List.mem_map_of_mem mem))))).2.2

/-- A relay copy queued in a sound pool is taken as every urgent offer (R118, R126). -/
theorem State.Sound.relay_urgentTaken {k : Bool} {out : List Claim} {s : State} {b : Fin 8} {w : RelayWait}
    (h : s.Sound k out) (found : s.relayWaitOf b = some w) (urgent : w.cls = .urgent) :
    s.UrgentTaken b ((s.dropRelayWait b).accept b .relay .urgent) := by
  obtain ⟨mem, rfl⟩ := State.relayWaitOf_mem found
  have stands := (h.wait_stands mem).2
  have dropped := h.dropRelayWait found
  rw [State.dropRelayWait_of found] at dropped ⊢
  exact (State.accept_urgentTaken (dropped.offersUrgent (stands.trans (congrArg some urgent)))).of_before rfl rfl rfl rfl rfl
    fun _ _ => rfl

/-- An own flood made is as `State.Originated` says. -/
theorem State.originate_originated {o : OwnFrame} {s t : State} (made : s.originate o = some t) (flood : o ≠ .observation) :
    s.Originated o t := by
  obtain ⟨b, free, -, cls, frame, x, mem, own⟩ := State.originate_made made
  exact ⟨by rw [(State.originate_flood made flood).1], b, free, cls, frame.trans (State.composeOwn_flood flood s), x, mem, own⟩

/-! ## The busy assessment (R122, R123) -/

theorem State.busyAssessment_urgent {e : TxEntry} {s : State} (current : s.tu.current = some e) (deferrals : e.deferrals = none) :
    s.busyAssessment = (s.count .txDeferred).enterBackoff := by
  simp only [State.busyAssessment, current, deferrals]

theorem State.busyAssessment_deferred {e : TxEntry} {n : Nat} {s : State} (current : s.tu.current = some e)
    (deferrals : e.deferrals = some n) (few : n < 11) : s.busyAssessment = State.enterBackoff { s.count .txDeferred with
      tu := { s.tu with current := some { e with deferrals := some (n + 1) } } } := by
  simp only [State.busyAssessment, current, deferrals, if_neg (show ¬ 12 ≤ n + 1 by omega)]
  rfl

theorem State.busyAssessment_abandoned {e : TxEntry} {n : Nat} {s : State} (current : s.tu.current = some e)
    (deferrals : e.deferrals = some n) (many : 11 ≤ n) :
    s.busyAssessment = State.abandon { e with deferrals := some (n + 1) } { s.count .txDeferred with
      tu := { s.tu with current := some { e with deferrals := some (n + 1) } } } := by
  simp only [State.busyAssessment, current, deferrals, if_pos (show 12 ≤ n + 1 by omega)]
  rfl

theorem State.abandon_eq (e : TxEntry) (s : State) :
    let left := (({ s with tu := { s.tu with current := none, phase := .idle, backoff := none, waiting := false } } : State).count
      .txAbandoned).freeAll [e.buf]
    s.abandon e = (if e.mark = .own ∧ Frame.kind (s.buf e.buf).frame = kindFault then left.faultUnsent else left).select := by
  intro left
  rw [State.abandon, State.tellUnsent]
  by_cases own : s.isOwnFault e = true
  · rw [if_pos own, if_pos (by simpa [State.isOwnFault] using own)]
  · rw [if_neg own, if_neg (by simpa [State.isOwnFault] using own)]

/-- The two counts of an abandonment, one on the other (R122, R123). -/
theorem State.counters_deferred_abandoned (s : State) : ((s.count .txDeferred).count .txAbandoned).counters =
    (s.counters.set 8 (min 65535 (s.counters[8] + 1))).set 9 (min 65535 (s.counters[9] + 1)) := by
  have other : (s.counters.set 8 (min 65535 (s.counters[8] + 1)))[9] = s.counters[9] := Vector.getElem_set_ne _ _ (by decide)
  exact congrArg (fun n => (s.counters.set 8 (min 65535 (s.counters[8] + 1))).set 9 (min 65535 (n + 1))) other

/-- An own urgent waiter is served where its frame can be made (R139). -/
theorem State.serveOne_own {w : Waiter} {o : OwnFrame} {s : State} (own : (∃ c e, w = .fire c e ∧ o = .fire c e) ∨
    w = .silence ∧ o = .silence ∨ (∃ p, w = .reset p) ∧ o = .reset) :
    o.cls = .urgent ∧ o ≠ .observation ∧ s.serveOne w = match s.originate o with
      | some t => t.dropWaiter w
      | none => s := by
  obtain ⟨c, e, rfl, rfl⟩ | ⟨rfl, rfl⟩ | ⟨⟨p, rfl⟩, rfl⟩ := own <;> exact ⟨rfl, nofun, rfl⟩

/-- Settles O38: the cases of the busy assessment, the freeing of a buffer, and the service of each waiter. -/
theorem busyAssessment : Obligations.BusyAssessment := by
  refine ⟨fun e s current => ⟨fun cls deferrals => ?_, fun n cls deferrals few => ?_, fun n deferrals many => ?_⟩,
    fun b s taken quiet waiters profile health => ?_, fun b s taken quiet => State.freeAll_one taken quiet,
    fun b s => ⟨fun place => ?_, fun w place found => ?_⟩, fun w o s own => ?_, fun s => ?_⟩
  · obtain ⟨k, low, high, eq⟩ := State.enterBackoff_urgent (s := s.count .txDeferred)
      (State.currentIs_iff.2 ⟨e, current, cls⟩)
    refine ⟨k, low, high, ?_⟩
    rw [State.busyAssessment_urgent current deferrals]
    exact eq
  · obtain ⟨k, low, high, eq⟩ := State.enterBackoff_other (s := { s.count .txDeferred with
      tu := { s.tu with current := some { e with deferrals := some (n + 1) } } })
      ((State.currentIs_of (e := { e with deferrals := some (n + 1) }) rfl).trans (decide_eq_false fun urgent => nomatch cls.symm.trans urgent))
    refine ⟨k, low, high, ?_⟩
    rw [State.busyAssessment_deferred current deferrals few]
    exact eq
  · intro left
    rw [State.busyAssessment_abandoned current deferrals many, State.abandon_eq]
    have same : State.freeAll [e.buf] (State.count .txAbandoned { s.count .txDeferred with
        tu := { s.tu with current := none, phase := .idle, backoff := none, waiting := false } }) = left :=
      congrArg (fun c : Vector Nat 16 => State.freeAll [e.buf] { s with
        counters := c
        tu := { s.tu with current := none, phase := .idle, backoff := none, waiting := false } })
        (State.counters_deferred_abandoned s)
    exact congrArg State.select (ite_congr rfl (fun _ => congrArg State.faultUnsent same) fun _ => same)
  · rw [State.freeAll_one taken quiet, State.serveWaiters_none]
    rotate_left
    · exact waiters
    · exact profile
    · exact health
    exact (Pool.get_put s.pool b b .empty).trans (if_pos rfl)
  · rw [State.serveOne]
    exact if_neg (by rw [place]; nofun)
  · intro t
    have eq : t = (s.dropRelayWait b).accept b .relay .urgent := if_pos place
    have offers := State.accept_offers b .relay .urgent (s.dropRelayWait b)
    have frame := State.accept_frame b .relay .urgent (s.dropRelayWait b)
    rw [eq]
    refine ⟨?_, State.accept_places .., ?_, State.accept_urgent_entry .., fun urgent sound => ?_, ?_⟩
    · rw [offers.fu, State.dropRelayWait_of found]
      rfl
    · rw [State.accept_keeps_frame, State.dropRelayWait_of found]
      rfl
    · exact (State.poolSound_iff.1 sound).relay_urgentTaken found urgent
    · exact ((State.dropRelayWait_frame b s).trans frame).sameDetection.symm
  · obtain ⟨urgent, flood, eq⟩ := State.serveOne_own (s := s) own
    refine ⟨fun cannot => ?_, fun can => ?_⟩
    · rw [eq, State.originate_of_cannot (by rw [urgent]; exact cannot)]
    · obtain ⟨t, made⟩ := State.originate_of_can (urgent ▸ can)
      have org := State.originate_originated made flood
      rw [eq, made]
      exact ⟨⟨org.1, org.2⟩, congrArg (List.erase · w) (State.originate_waiters made).1,
        { (State.originate_frame made).sameDetection.symm with }⟩
  · refine ⟨fun none => ?_, fun p pending can => ?_, fun none => ?_, fun pending can => ?_⟩
    · rw [State.serveProfile]
      obtain none | cannot := none
      · rw [none]
      · split
        · rw [State.originate_of_cannot (o := .profile _) cannot]
        · rfl
    · obtain ⟨t, made⟩ := State.originate_of_can (o := .profile p) can
      have eq : s.serveProfile = { t with fu := { t.fu with pendingProfile := none } } := by
        simp only [State.serveProfile, pending, made]
      have org := State.originate_originated made nofun
      rw [eq]
      exact ⟨⟨org.1, org.2⟩, rfl, { (State.originate_frame made).sameDetection.symm with }⟩
    · rw [State.serveHealth]
      obtain none | cannot := none
      · exact if_neg (by rw [none]; nofun)
      · rw [State.originate_of_cannot (o := .health) cannot]
        exact ite_self _
    · obtain ⟨t, made⟩ := State.originate_of_can (o := .health) can
      have eq : s.serveHealth = { t with fu := { t.fu with pendingHealth := false } } := by
        simp only [State.serveHealth, if_pos pending, made]
      have org := State.originate_originated made nofun
      rw [eq]
      refine ⟨⟨org.1, org.2⟩, rfl, fun c => ?_, { (State.originate_frame made).sameDetection.symm with }⟩
      have counters : t.counters = countersInitial := (State.originate_routine made rfl).2.2
      rw [State.counter, show ({ t with fu := { t.fu with pendingHealth := false } } : State).counters = _ from counters,
        countersInitial, Vector.getElem_replicate]

end Sys2Proof.Machine
end

section
/-! SUPPORT. The body's end (R129): its parts in their order, what each leaves, and the fault list's part (R175). -/
namespace Sys2Proof.Machine

/-! ## What a look and a clear leave -/

theorem State.look_serves (s : State) : s.Serves s.look := by
  unfold State.look
  split
  · exact .refl s
  · split
    · rename_i t made
      exact (State.originate_serves made nofun).trans (.of_eq rfl rfl rfl rfl rfl)
    · split
      · exact .refl s
      · exact .of_eq rfl rfl rfl rfl rfl

theorem State.faultBodyEnded_serves (s : State) : s.Serves s.faultBodyEnded :=
  .trans (t := { s with faults := s.faults.bodyEnded }) (.of_eq rfl rfl rfl rfl rfl) (State.look_serves _)

theorem State.panelRecord_serves (type : RecordType) (origin : Addr) (zone code detail : Byte) (s : State) :
    s.Serves (s.panelRecord type origin zone code detail) := by
  rw [State.panelRecord_eq]
  exact .of_eq rfl rfl rfl rfl rfl

theorem State.clear_serves (c : FaultCode) (a : Addr) (s : State) : s.Serves (s.clear c a) := by
  have marked : s.Serves { s with faults := (s.faults.clear c a).2 } := .of_eq rfl rfl rfl rfl rfl
  unfold State.clear
  dsimp only
  split
  · exact (marked.trans (State.panelRecord_serves _ _ _ _ _ _)).trans (State.look_serves _)
  · exact marked

/-! ## The parts of the event -/

/-- The counters after a body (R129, R183). -/
def State.bodyCounts (x : TxEntry) (s : State) : Vector Nat 16 :=
  let sent := s.counters.set 7 (min 65535 (s.counters[7] + 1))
  if x.mark = .relay then sent.set 10 (min 65535 (sent[10] + 1)) else sent

/-- The counts, the guard, the radio and the transmit unit, before the buffer is freed (R129). -/
def State.bodyOff (dt : Us) (x : TxEntry) (s : State) : State := { s with
  now := s.now + dt
  counters := s.bodyCounts x
  guards := { s.guards with body := none }
  radio := { s.radio with owner := .none, rx := if s.su.list = .alert then .listening else .off }
  tu := { s.tu with current := none, phase := .idle } }

/-- The commitment restarted by a body that went out with the flag (R166). -/
def State.bodyCommitted (dt : Us) (x : TxEntry) (s : State) : State :=
  let freed := State.freeAll [x.buf] (s.bodyOff dt x)
  if s.tu.sentAlert = true ∧ s.isDetector = true then
    { freed with su := { freed.su with commitment := some (s.now + dt + 3000000) } } else freed

/-- The notice of an own FAULT (R175). -/
def State.bodyTold (dt : Us) (x : TxEntry) (s : State) : State :=
  if x.mark = .own ∧ Frame.kind (s.buf x.buf).frame = 6 then (s.bodyCommitted dt x).faultBodyEnded else s.bodyCommitted dt x

/-- The clear of CHANNEL-BLOCKED after an urgent body (R124). -/
def State.bodyCleared (dt : Us) (x : TxEntry) (s : State) : State :=
  if (s.buf x.buf).cls = some .urgent then State.clear .channelBlocked s.cfg.address (s.bodyTold dt x) else s.bodyTold dt x

section parts

variable {dt : Us} {x : TxEntry} {s : State}

/-- The frame in progress off the air and the radio released (R99, R102). -/
theorem State.offAir_eq (owner : s.radio.owner = .tu) :
    ({ s.releaseTu with tu := { s.releaseTu.tu with current := none, phase := .idle } } : State) = { s with
      radio := { s.radio with owner := .none, rx := if s.su.list = .alert then .listening else .off }
      tu := { s.tu with current := none, phase := .idle } } := by
  rw [State.releaseTu_of owner]

/-- The event's first parts (R129). -/
def State.bodyOffAir (x : TxEntry) (s : State) : State :=
  let sent := s.count .txSent
  let counted := if x.mark = .relay then sent.count .relaySent else sent
  let released := (counted.stopGuard .body).releaseTu
  { released with tu := { released.tu with current := none, phase := .idle } }

theorem State.bodyOffAir_eq (owner : s.radio.owner = .tu) : (s.elapse dt).bodyOffAir x = s.bodyOff dt x := by
  unfold State.bodyOffAir State.bodyOff State.bodyCounts
  by_cases relay : x.mark = .relay
  · simp only [if_pos relay]
    exact State.offAir_eq (s := (((s.elapse dt).count .txSent).count .relaySent).stopGuard .body) owner
  · simp only [if_neg relay]
    exact State.offAir_eq (s := ((s.elapse dt).count .txSent).stopGuard .body) owner

theorem State.bodyCommitted_eq :
    State.commit s.tu.sentAlert (State.freeAll [x.buf] (s.bodyOff dt x)) = s.bodyCommitted dt x := by
  have frame := State.freeAll_frame [x.buf] (s.bodyOff dt x)
  have role : (State.freeAll [x.buf] (s.bodyOff dt x)).isDetector = s.isDetector := frame.fault.isDetector
  have now : (State.freeAll [x.buf] (s.bodyOff dt x)).now = s.now + dt := frame.now
  rw [State.commit, State.bodyCommitted, role]
  simp only [Bool.and_eq_true, State.after, now]
  rfl

theorem State.isOwnFault_iff : s.isOwnFault x = true ↔ x.mark = .own ∧ Frame.kind (s.buf x.buf).frame = 6 := by
  rw [State.isOwnFault, Bool.and_eq_true, decide_eq_true_eq, decide_eq_true_eq]
  exact Iff.rfl

/-! ## What the parts leave -/

theorem State.bodyCommitted_serves : (s.bodyOff dt x).Serves (s.bodyCommitted dt x) := by
  have freed := State.freeAll_serves [x.buf] (s.bodyOff dt x)
  unfold State.bodyCommitted
  dsimp only
  split
  · exact freed.trans (.of_eq rfl rfl rfl rfl rfl)
  · exact freed

theorem State.bodyCommitted_same : s.SameDetection (s.bodyCommitted dt x) := by
  have freed : s.SameDetection (State.freeAll [x.buf] (s.bodyOff dt x)) :=
    have off : s.SameDetection (s.bodyOff dt x) := ⟨rfl, rfl, rfl, rfl, rfl, rfl, rfl, rfl⟩
    off.trans (State.freeAll_frame _ _).sameDetection
  unfold State.bodyCommitted
  dsimp only
  split
  · exact { freed with }
  · exact freed

theorem State.bodyCommitted_cfg : (s.bodyCommitted dt x).cfg = s.cfg := by
  simp only [State.cfg, (State.bodyCommitted_same (dt := dt) (x := x)).sc]

theorem State.bodyCommitted_su : (s.bodyCommitted dt x).su = { s.su with commitment :=
    (if s.tu.sentAlert = true ∧ s.isDetector = true then some (s.now + dt + 3000000) else s.su.commitment) } := by
  have freed : (State.freeAll [x.buf] (s.bodyOff dt x)).su = s.su := (State.freeAll_frame _ _).su
  unfold State.bodyCommitted
  dsimp only
  split
  · rw [freed]
  · exact freed

theorem State.bodyCommitted_faults : (s.bodyCommitted dt x).faults = s.faults := by
  have freed : (State.freeAll [x.buf] (s.bodyOff dt x)).faults = s.faults := (State.freeAll_frame _ _).faults
  unfold State.bodyCommitted
  dsimp only
  split <;> exact freed

theorem State.bodyCommitted_body : (s.bodyCommitted dt x).guards.body = none := by
  have freed : (State.freeAll [x.buf] (s.bodyOff dt x)).guards.body = none := by
    rw [(State.freeAll_frame [x.buf] (s.bodyOff dt x)).guards]
    rfl
  unfold State.bodyCommitted
  dsimp only
  split <;> exact freed

theorem State.bodyTold_frame : (s.bodyCommitted dt x).FaultFrame (s.bodyTold dt x) := by
  unfold State.bodyTold
  split
  · exact State.faultBodyEnded_frame _
  · exact .refl _

theorem State.bodyCleared_frame : (s.bodyCommitted dt x).FaultFrame (s.bodyCleared dt x) := by
  unfold State.bodyCleared
  split
  · exact State.bodyTold_frame.trans (State.clear_frame _ _ _)
  · exact State.bodyTold_frame

theorem State.bodyCleared_serves : (s.bodyOff dt x).Serves (s.bodyCleared dt x) := by
  have told : (s.bodyOff dt x).Serves (s.bodyTold dt x) := by
    unfold State.bodyTold
    split
    · exact State.bodyCommitted_serves.trans (State.faultBodyEnded_serves _)
    · exact State.bodyCommitted_serves
  unfold State.bodyCleared
  split
  · exact told.trans (State.clear_serves _ _ _)
  · exact told

/-- CHANNEL-BLOCKED is not ACTIVE after an urgent body (R124). -/
theorem State.bodyCleared_inactive (urgent : (s.buf x.buf).cls = some .urgent) (keyed : s.TablesKeyed) :
    ¬ (s.bodyCleared dt x).FaultActive .channelBlocked s.cfg.address := by
  rw [State.bodyCleared, if_pos urgent]
  refine State.clear_faultInactive (State.bodyTold_frame.faults.keys ?_)
  rw [State.bodyCommitted_faults]
  exact keyed.faults

/-- The two counts, one on the other. -/
theorem State.bodyOff_counter (c : Counter) : (s.bodyOff dt x).counter c =
    (if x.mark = .relay then (s.count .txSent).count .relaySent else s.count .txSent).counter c := by
  have eq : s.bodyCounts x =
      (if x.mark = .relay then (s.count .txSent).count .relaySent else s.count .txSent).counters := by
    unfold State.bodyCounts
    dsimp only
    split <;> rfl
  exact congrArg (fun v : Vector Nat 16 => v[c.index.val]) eq

theorem State.bodyOff_txSent : (s.bodyOff dt x).counter .txSent = min 65535 (s.counter .txSent + 1) := by
  rw [State.bodyOff_counter]
  split
  · rw [State.counter_count, if_neg nofun, State.counter_count, if_pos rfl]
  · rw [State.counter_count, if_pos rfl]

theorem State.bodyOff_relaySent : (s.bodyOff dt x).counter .relaySent =
    if x.mark = .relay then min 65535 (s.counter .relaySent + 1) else s.counter .relaySent := by
  rw [State.bodyOff_counter]
  split
  · rw [State.counter_count, if_pos rfl, State.counter_count, if_neg nofun]
  · rw [State.counter_count, if_neg nofun]

/-! ## The event -/

/-- The event's parts in their order. -/
theorem State.bodyEnded_eq (current : s.tu.current = some x) (owner : s.radio.owner = .tu) :
    (s.elapse dt).bodyEnded x = (s.bodyCleared dt x).select := by
  have told : (if (s.elapse dt).isOwnFault x = true then
      State.faultBodyEnded (State.commit s.tu.sentAlert (State.freeAll [x.buf] ((s.elapse dt).bodyOffAir x)))
      else State.commit s.tu.sentAlert (State.freeAll [x.buf] ((s.elapse dt).bodyOffAir x))) = s.bodyTold dt x := by
    rw [State.bodyOffAir_eq owner, State.bodyCommitted_eq]
    exact ite_congr (propext State.isOwnFault_iff) (fun _ => rfl) fun _ => rfl
  have off : (s.elapse dt).bodyEnded x = State.select (if (s.elapse dt).currentIs .urgent = true then
      State.clearOwn .channelBlocked (s.bodyTold dt x) else s.bodyTold dt x) := by
    rw [← told]
    rfl
  have cfg : (s.bodyTold dt x).cfg = s.cfg := (State.bodyTold_frame (dt := dt)).cfg.trans State.bodyCommitted_cfg
  rw [off, State.clearOwn, cfg]
  refine congrArg State.select (ite_congr (propext (?_ : _ ↔ _)) (fun _ => rfl) fun _ => rfl)
  rw [State.currentIs_iff]
  exact ⟨fun ⟨e, is, cls⟩ => Option.some.inj (current.symm.trans is) ▸ cls, fun cls => ⟨x, current, cls⟩⟩

theorem exec_bodyEnd (phase : s.tu.phase = .body) (current : s.tu.current = some x) (owner : s.radio.owner = .tu) :
    exec (.bodyEnd dt) s = .next (State.finish s (s.bodyCleared dt x).select) := by
  change execBodyEnd dt s = _
  refine State.event_eq ?_
  simp only [State.elapse_tu, current]
  exact (if_pos phase).trans (State.bodyEnded_eq current owner)

end parts

/-! ## The fault list's part (R175) -/

/-- A record when a FAULT's body has ended (R175). -/
def FaultRecord.sent (r : FaultRecord) : FaultRecord := if r.composed then { r with reported := true, composed := false } else r

theorem FaultLog.mem_bodyEnded {f : FaultLog} {r : FaultRecord} : r ∈ f.bodyEnded.records ↔
    (r.active = true ∨ r.reported = false) ∧ ∃ q ∈ f.records, r = q.sent := by
  change r ∈ (f.records.map FaultRecord.sent).filter _ ↔ _
  rw [List.mem_filter, List.mem_map, Bool.or_eq_true, Bool.not_eq_true', and_comm]
  exact and_congr Iff.rfl (exists_congr fun q => and_congr Iff.rfl eq_comm)

theorem FaultLog.bodyEnded_length (f : FaultLog) : f.bodyEnded.records.length ≤ f.records.length :=
  Nat.le_trans (List.length_filter_le _ _) (Nat.le_of_eq (List.length_map _))

theorem FaultLog.bodyEnded_storageLoss {f : FaultLog} : f.bodyEnded.storageLoss = true ↔ f.storageLoss = true ∧
    ¬ (f.bodyEnded.records.length < f.records.length ∧ f.bodyEnded.records.length < 8) := by
  have eq : f.bodyEnded.storageLoss = (f.storageLoss && !(decide (f.bodyEnded.records.length <
      (f.records.map FaultRecord.sent).length) && decide (f.bodyEnded.records.length < 8))) := rfl
  rw [eq, List.length_map, Bool.and_eq_true, Bool.not_eq_true', ← Bool.not_eq_true, Bool.and_eq_true, decide_eq_true_eq,
    decide_eq_true_eq]

/-- Settles O41: the event's parts are one equation, and what they leave follows from the rules of each. -/
theorem bodyEnd : Obligations.BodyEnd := by
  refine ⟨fun dt x s phase current owner => exec_bodyEnd phase current owner, fun dt x s phase current owner => ?_,
    fun f r => ⟨FaultLog.mem_bodyEnded, FaultLog.bodyEnded_length f, FaultLog.bodyEnded_storageLoss⟩⟩
  refine ⟨_, exec_bodyEnd phase current owner, ?_⟩
  have frame : (s.bodyCommitted dt x).FaultFrame (s.bodyCleared dt x).select :=
    State.bodyCleared_frame.trans (State.select_frame _).fault
  have serves : (s.bodyOff dt x).Serves (s.bodyCleared dt x).select := State.bodyCleared_serves.trans (State.select_serves _)
  have radio := serves.radio nofun
  simp only [State.finish_counter, State.finish_guards, State.finish_radio, State.finish_tu, State.finish_su_commitment,
    State.finish_su_list, State.finish_faultActive, radio, frame.su, State.bodyCommitted_su]
  refine ⟨fun none => ?_, ?_, rfl, rfl, serves.phase (.inl rfl), trivial, trivial, .finish (dt := dt) ?_, fun urgent keyed => ?_⟩
  · have counters := (serves.counters none).2
    exact ⟨(counters .txSent nofun).trans State.bodyOff_txSent, (counters .relaySent nofun).trans State.bodyOff_relaySent⟩
  · rw [frame.guards]
    exact State.bodyCommitted_body
  · have before : (s.elapse dt).SameDetection s := ⟨rfl, rfl, rfl, rfl, rfl, rfl, rfl, rfl⟩
    exact (before.trans State.bodyCommitted_same).trans frame.sameDetection
  · rw [State.select_faultActive]
    exact State.bodyCleared_inactive urgent keyed

end Sys2Proof.Machine
end

section
/-! SUPPORT. The relay of a flood (R148 to R150): the copy and its wait, the offer at the wait's end, and the copies heard. -/
namespace Sys2Proof.Machine

/-! ## The records of the relay waits -/

theorem State.relayWaitOf_eq_none {b : Fin 8} {s : State} (absent : ∀ w ∈ s.fu.relayWaits, w.buf ≠ b) :
    s.relayWaitOf b = none := by
  rw [State.relayWaitOf, List.find?_eq_none]
  exact fun w hw => by simpa using absent w hw

/-- A record that is not among the relay waits left is not among those of a state that has no others. -/
theorem State.relayWaitOf_gone {b : Fin 8} {s t : State} (gone : ∀ w ∈ s.fu.relayWaits, w.buf ≠ b)
    (waits : t.fu.relayWaits ⊆ s.fu.relayWaits) : t.relayWaitOf b = none :=
  State.relayWaitOf_eq_none fun w hw => gone w (waits hw)

theorem State.dropRelayWait_gone {b : Fin 8} {w : RelayWait} {s : State} (found : s.relayWaitOf b = some w) :
    ∀ x ∈ (s.dropRelayWait b).fu.relayWaits, x.buf ≠ b := by
  rw [State.dropRelayWait_of found]
  exact fun x hx => of_decide_eq_true (List.mem_filter.1 hx).2

/-- A wait marked ended is found as the record it was. -/
theorem State.relayWaitOf_ended {b : Fin 8} {w : RelayWait} {s : State} (found : s.relayWaitOf b = some w) :
    (s.endRelayWait b).relayWaitOf b = some { w with running := false } := by
  have buf := (State.relayWaitOf_mem found).2
  have same : ((fun x : RelayWait => decide (x.buf = b)) ∘ fun x : RelayWait => if x.buf = b then { x with running := false } else x) =
      fun x : RelayWait => decide (x.buf = b) := by
    funext x
    dsimp only [Function.comp]
    split <;> rfl
  rw [State.relayWaitOf, State.endRelayWait, List.find?_map, same]
  rw [State.relayWaitOf] at found
  rw [found, Option.map_some, if_pos buf]

/-! ## The offer (R150) -/

section offer

variable {b : Fin 8} {w : RelayWait} {s : State}

theorem State.relayOffer_place (found : s.relayWaitOf b = some w) (place : s.placeFree w.cls = true) :
    s.relayOffer b = (s.dropRelayWait b).accept b .relay w.cls := by
  simp only [State.relayOffer, found]
  exact if_pos place

theorem State.relayOffer_waits (found : s.relayWaitOf b = some w) (place : s.placeFree w.cls = false) (urgent : w.cls = .urgent)
    (new : .relay b ∉ s.fu.waiters) : s.relayOffer b = s.joinWaiters (.relay b) := by
  simp only [State.relayOffer, found, place]
  rw [urgent]
  refine (if_neg nofun).trans (if_neg ?_)
  rw [List.contains_iff_mem]
  exact new

theorem State.relayOffer_dropped (found : s.relayWaitOf b = some w) (place : s.placeFree w.cls = false)
    (routine : w.cls = .routine) : s.relayOffer b = ((s.dropRelayWait b).count .txAbandoned).freeAll [b] := by
  simp only [State.relayOffer, found, place]
  rw [routine]
  exact if_neg nofun

/-- A copy offered a free place stands at the transmit unit with the relay mark, and its record and pin are gone. -/
theorem State.relayAccepted_entry (c : FrameClass) (found : s.relayWaitOf b = some w) :
    let t := (s.dropRelayWait b).accept b .relay c
    t.relayWaitOf b = none ∧ ((t.buf b).state = .queued ∨ (t.buf b).state = .sending) ∧
      (t.buf b).frame = (s.buf b).frame ∧ ∃ x ∈ t.tu.entries, x.buf = b ∧ x.mark = .relay := by
  refine ⟨State.relayWaitOf_gone (State.dropRelayWait_gone found) ?_, State.accept_places .., ?_, State.accept_entry ..⟩
  · rw [(State.accept_offers _ _ _ _).fu]
    exact fun _ => id
  · rw [State.accept_keeps_frame, State.dropRelayWait_of found]
    rfl

/-- A routine copy without a place: TX-ABANDONED, and its record and pin are gone (R150). -/
theorem State.relayDropped_counter (found : s.relayWaitOf b = some w) (quiet : s.fu.pendingHealth = false) :
    let t := ((s.dropRelayWait b).count .txAbandoned).freeAll [b]
    t.relayWaitOf b = none ∧ t.counter .txAbandoned = min 65535 (s.counter .txAbandoned + 1) := by
  have serves := State.freeAll_serves [b] ((s.dropRelayWait b).count .txAbandoned)
  have quiet' : ((s.dropRelayWait b).count .txAbandoned).fu.pendingHealth = false := by
    rw [State.dropRelayWait_of found]
    exact quiet
  refine ⟨State.relayWaitOf_gone (State.dropRelayWait_gone found) serves.waits, ?_⟩
  rw [(serves.counters quiet').2 .txAbandoned nofun, State.counter_count, if_pos rfl, State.dropRelayWait_of found]
  rfl

end offer

/-! ## The copy (R148) -/

theorem Frame.hops_byte {x : Byte} (few : (x.extractLsb' 4 4).toNat < (x.extractLsb' 0 4).toNat) :
    ((x + 0x10).extractLsb' 4 4).toNat = (x.extractLsb' 4 4).toNat + 1 ∧
      ((x + 0x10).extractLsb' 0 4).toNat = (x.extractLsb' 0 4).toNat := by
  have bound := (x.extractLsb' 0 4).isLt
  simp only [BitVec.extractLsb'_toNat, BitVec.toNat_add, Nat.shiftRight_eq_div_pow, show (0x10 : Byte).toNat = 16 from rfl] at few bound ⊢
  omega

/-- The copy keeps every byte but the sender and the hops. -/
theorem Frame.relayCopy_other (own : Addr) (f : List Byte) {i : Nat} (low : i ≠ 4) (high : i ≠ 5) (hops : i ≠ 11) :
    (Frame.relayCopy own f)[i]? = f[i]? := by
  rw [Frame.relayCopy, List.getElem?_set_ne (Ne.symm hops), List.getElem?_set_ne (Ne.symm high),
    List.getElem?_set_ne (Ne.symm low)]

theorem Frame.relayCopy_length (own : Addr) (f : List Byte) : (Frame.relayCopy own f).length = f.length := by
  rw [Frame.relayCopy, List.length_set, List.length_set, List.length_set]

section copy

variable {own : Addr} {f : List Byte}

theorem Frame.relayCopy_sender (long : 12 ≤ f.length) : Frame.sender (Frame.relayCopy own f) = own := by
  have byte4 : Frame.byte (Frame.relayCopy own f) 4 = own.extractLsb' 0 8 := by
    simp [Frame.byte, Frame.relayCopy, List.getD_eq_getElem?_getD, show 4 < f.length by omega]
  have byte5 : Frame.byte (Frame.relayCopy own f) 5 = own.extractLsb' 8 8 := by
    simp [Frame.byte, Frame.relayCopy, List.getD_eq_getElem?_getD, show 5 < f.length by omega]
  rw [Frame.sender, byte4, byte5, le16_bytes]

theorem Frame.relayCopy_hops (long : 12 ≤ f.length) : Frame.body (Frame.relayCopy own f) 4 = Frame.body f 4 + 0x10 := by
  simp [Frame.body, Frame.byte, Frame.relayCopy, List.getD_eq_getElem?_getD, show 11 < f.length by omega]

end copy

/-- A flood's class by its kind (R85). -/
theorem classOfKind_eq (k : Byte) : classOfKind k = if k = 2 ∨ k = 3 ∨ k = 4 then .urgent else .routine := rfl

/-- The wait's draw (R148). -/
theorem State.relayWaitTime_eq (kind : Byte) (s : State) : ∃ k : Nat, k ≤ (if kind = 2 ∨ kind = 3 ∨ kind = 4 then 7 else 15) ∧
    s.relayWaitTime (classOfKind kind) = k * (if kind = 2 ∨ kind = 3 ∨ kind = 4 then 8000 else 50000) := by
  rw [classOfKind_eq]
  by_cases urgent : kind = 2 ∨ kind = 3 ∨ kind = 4
  · have bound : s.drawOf 8 < 8 := Nat.mod_lt _ (by decide)
    refine ⟨s.drawOf 8, ?_, ?_⟩
    · rw [if_pos urgent]
      omega
    · rw [if_pos urgent, if_pos urgent, State.relayWaitTime]
      show 8 * s.drawOf 8 * 1000 = s.drawOf 8 * 8000
      omega
  · have bound : s.drawOf 16 < 16 := Nat.mod_lt _ (by decide)
    refine ⟨s.drawOf 16, ?_, ?_⟩
    · rw [if_neg urgent]
      omega
    · rw [if_neg urgent, if_neg urgent, State.relayWaitTime]
      show 50 * s.drawOf 16 * 1000 = s.drawOf 16 * 50000
      omega

/-- The copy in its buffer with its record, its pin and its draw. -/
def State.copied (b : Fin 8) (s : State) : State :=
  let f := (s.buf b).frame
  State.setBuf b { s.buf b with state := .relayWait, frame := Frame.relayCopy s.cfg.address f } { s with
    draws := s.draws + 1
    fu := { s.fu with
      relayWaits := s.fu.relayWaits ++ [{
        buf := b, origin := Frame.origin f, run := Frame.run f, seq := Frame.seq f, cls := classOfKind (Frame.kind f),
        endsAt := s.now + s.relayWaitTime (classOfKind (Frame.kind f)), copies := 0, running := true }]
      seen := seenPin (Frame.origin f) s.fu.seen } }

theorem State.relay_copied {b : Fin 8} {s : State} (few : Frame.hops (s.buf b).frame < Frame.hopLimit (s.buf b).frame) :
    s.relay b = if s.relayWaitTime (classOfKind (Frame.kind (s.buf b).frame)) = 0 then
      ((s.copied b).endRelayWait b).relayOffer b else s.copied b := if_pos few

/-! ## The copies heard (R149) -/

/-- The relay wait of a duplicate (R149). -/
def RelayWait.hears (origin : Addr) (run seq : BitVec 8) (w : RelayWait) : Bool :=
  w.running && decide (w.origin = origin) && decide (w.run = run) && decide (w.seq = seq)

theorem RelayWait.hears_iff {origin : Addr} {run seq : BitVec 8} {w : RelayWait} : w.hears origin run seq = true ↔
    w.running = true ∧ w.origin = origin ∧ w.run = run ∧ w.seq = seq := by
  simp [RelayWait.hears, and_assoc]

theorem State.copyHeard_none {origin : Addr} {run seq : BitVec 8} {s : State}
    (none : ∀ w ∈ s.fu.relayWaits, w.hears origin run seq = false) : s.copyHeard origin run seq = s := by
  have found : s.fu.relayWaits.find? (RelayWait.hears origin run seq) = .none :=
    List.find?_eq_none.2 fun w hw => by rw [none w hw]; nofun
  change (match s.fu.relayWaits.find? (RelayWait.hears origin run seq) with
    | .none => s
    | some w => _) = s
  rw [found]

section heard

variable {origin : Addr} {run seq : BitVec 8} {w : RelayWait} {s : State}

theorem State.copyHeard_routine (found : s.fu.relayWaits.find? (RelayWait.hears origin run seq) = some w)
    (routine : w.cls = .routine) (second : 1 ≤ w.copies) : s.copyHeard origin run seq =
      ((s.dropRelayWait w.buf).count .relaySuppressed).freeAll [w.buf] := by
  change (match s.fu.relayWaits.find? (RelayWait.hears origin run seq) with
    | .none => s
    | some w => _) = _
  rw [found]
  exact if_pos ⟨routine, Nat.succ_le_succ second⟩

theorem State.copyHeard_counted (found : s.fu.relayWaits.find? (RelayWait.hears origin run seq) = some w)
    (goes : w.cls = .urgent ∨ w.copies = 0) : s.copyHeard origin run seq = { s with fu := { s.fu with
      relayWaits := s.fu.relayWaits.map (fun x =>
        if x.buf = w.buf then { x with copies := min 255 (x.copies + 1) } else x) } } := by
  change (match s.fu.relayWaits.find? (RelayWait.hears origin run seq) with
    | .none => s
    | some w => _) = _
  rw [found]
  refine if_neg fun ⟨routine, second⟩ => ?_
  obtain urgent | first := goes
  · exact nomatch urgent.symm.trans routine
  · rw [first] at second
    omega

end heard

/-- Settles O46: the offer at the wait's end by its three cases, the copy made and its wait, and the copies heard. -/
theorem relayWaitEnd : Obligations.RelayWaitEnd := by
  refine ⟨fun dt w s found running ended settled => ?_, fun b s => ⟨fun limit => ?_, fun few => ?_⟩,
    fun origin run seq s => ⟨fun none => ?_, fun w mem hit unique => ?_⟩⟩
  · have run : exec (.relayWaitEnd dt w.buf) s = .next (State.finish s (State.relayOffer w.buf
        (State.endRelayWait w.buf (s.elapse dt)))) := exec_settled (exec_relayWaitEnd_due found running ended) settled
    have still := State.relayWaitOf_ended (s := s.elapse dt) found
    have same : ∀ {t : State}, (State.endRelayWait w.buf (s.elapse dt)).TxFrame t → (State.finish s t).SameDetection s :=
      fun frame =>
        have before : (s.elapse dt).SameDetection (State.endRelayWait w.buf (s.elapse dt)) :=
          ⟨rfl, rfl, rfl, rfl, rfl, rfl, rfl, rfl⟩
        .finish (dt := dt) (before.trans frame.sameDetection)
    have frame := State.relayOffer_frame w.buf (State.endRelayWait w.buf (s.elapse dt))
    refine ⟨fun place => ⟨_, run, ?_⟩, fun place urgent new => ?_, fun place routine health => ⟨_, run, ?_⟩⟩
    · have offered := State.relayOffer_place still place
      obtain ⟨gone, places, frameKept, entry⟩ := State.relayAccepted_entry w.cls still
      rw [offered] at frame ⊢
      simp only [State.finish_relayWaitOf, State.finish_buf, State.finish_tu]
      refine ⟨gone, places, frameKept, same frame, fun urgent sound => .finish ?_, entry⟩
      have before : s.Sound true [] := State.poolSound_iff.1 sound
      have ended : (State.endRelayWait w.buf (s.elapse dt)).Sound true [] := State.Sound.endRelayWait (s := s.elapse dt) before w.buf
      have taken := ended.relay_urgentTaken still urgent
      rw [← urgent] at taken
      exact taken.of_before rfl rfl rfl rfl rfl fun _ _ => rfl
    · rw [run]
      exact congrArg (fun t => Host.Outcome.next (State.finish s t)) (State.relayOffer_waits still place urgent new)
    · have dropped := State.relayOffer_dropped still place routine
      obtain ⟨gone, count⟩ := State.relayDropped_counter still health
      rw [dropped] at frame ⊢
      rw [State.finish_relayWaitOf, State.finish_counter]
      exact ⟨gone, same frame, count⟩
  · exact if_neg (Nat.not_lt.2 limit)
  · have sender := Frame.relayCopy_sender (own := s.cfg.address) (f := (s.buf b).frame)
    have hops := Frame.relayCopy_hops (own := s.cfg.address) (f := (s.buf b).frame)
    obtain ⟨more, same⟩ := Frame.hops_byte few
    obtain ⟨k, bound, time⟩ := State.relayWaitTime_eq (Frame.kind (s.buf b).frame) s
    have eq := State.relay_copied (s := s) few
    rw [State.copied, time] at eq
    refine ⟨Frame.relayCopy s.cfg.address (s.buf b).frame, k, bound, fun i => Frame.relayCopy_other _ _,
      Frame.relayCopy_length _ _, fun long => ⟨sender long, ?_, ?_⟩, fun later => ?_, fun now => ?_⟩
    · rw [Frame.hops, hops long]
      exact more
    · rw [Frame.hopLimit, hops long]
      exact same
    · exact eq.trans (if_neg later)
    · exact eq.trans (if_pos now)
  · exact State.copyHeard_none fun w mem => Bool.eq_false_iff.2 fun hit => none w mem (RelayWait.hears_iff.1 hit)
  · have found : s.fu.relayWaits.find? (RelayWait.hears origin run seq) = some w := by
      cases first : s.fu.relayWaits.find? (RelayWait.hears origin run seq) with
      | none => exact absurd (RelayWait.hears_iff.2 hit) (List.find?_eq_none.1 first w mem)
      | some x => exact congrArg some (unique x (List.mem_of_find?_eq_some first)
          (.inl (RelayWait.hears_iff.1 (List.find?_some first))))
    have record : s.relayWaitOf w.buf = some w := by
      cases first : s.relayWaitOf w.buf with
      | none => exact absurd (decide_eq_true rfl) (List.find?_eq_none.1 first w mem)
      | some x =>
        obtain ⟨xmem, buf⟩ := State.relayWaitOf_mem first
        exact congrArg some (unique x xmem (.inr buf))
    refine ⟨fun routine second => ?_, State.copyHeard_counted found⟩
    rw [State.copyHeard_routine found routine second, State.dropRelayWait_of record]
    obtain ⟨-, rfl, -⟩ := hit
    rfl

end Sys2Proof.Machine
end

section
/-! SUPPORT. The header's bytes (R105, R106): the claim of a buffer with the busy flag it raises, and the seventh byte. -/
namespace Sys2Proof.Machine

/-! ## A buffer claimed (R109, R110) -/

theorem Pool.freeCount_claim {p : Pool} {b : Fin 8} {x : Buffer} (free : (p.get b).state = .free) (taken : x.state ≠ .free) :
    p.freeCount = (p.put b x).freeCount + 1 := by
  have own : decide (((p.put b x).get b).state = .free) = false := by
    rw [Pool.get_put, if_pos rfl]
    exact decide_eq_false taken
  have sum := countP_or_eq_add_count (p := fun c => decide (((p.put b x).get c).state = .free)) own (List.finRange 8)
  rw [count_finRange_eight] at sum
  refine Eq.trans (List.countP_congr fun c _ => ?_) sum
  rw [Pool.get_put]
  split
  · rename_i eq
    simp [eq, free]
  · rename_i other
    simp [other]

theorem State.recount_busy (s : State) : s.recount.pool.busy = busyAfter s.pool.busy s.pool.freeCount := by
  obtain eq | ⟨b, -, -, eq⟩ := State.recount_cases s
  · rw [eq]
    rfl
  · rw [eq, State.accept_routine_busy]
    rfl

theorem State.Sound.pool_settled {out : List Claim} {s : State} (h : s.Sound true out) : s.pool.FlagSettled := Holding.flag h rfl

/-- A recount that raises no flag brings nothing else (R112). -/
theorem State.recount_flagged {s : State} (quiet : s.pool.busy = true ∨ 4 ≤ s.pool.freeCount) : s.recount = s.flagged := by
  refine if_neg fun raises => ?_
  obtain ⟨raised, low⟩ := Bool.and_eq_true_iff.1 raises
  rw [Bool.not_eq_true'] at low
  rw [low] at quiet raised
  have few : s.pool.freeCount ≤ 3 := of_decide_eq_true raised
  exact quiet.elim nofun fun many => by omega

/-- The raising of the flag brings an OBSERVATION, where one can be made (R112). -/
theorem State.recount_raises {s : State} (low : s.pool.busy = false) (few : s.pool.freeCount ≤ 3)
    (can : s.CanOriginate .routine) : s.recount.ownInFlight kindObservation = true := by
  have raised : busyAfter s.pool.busy s.pool.freeCount = true := by
    rw [low]
    exact decide_eq_true few
  have eq : s.recount = s.flagged.busyObservation := if_pos (by rw [raised, low]; rfl)
  rw [eq, State.busyObservation]
  split
  · assumption
  · obtain ⟨t, made⟩ := State.originateBare_of_can (o := .observation) (s := s.flagged) can
    rw [made]
    exact (State.originateBare_observation_holds made).inFlight

theorem State.PoolSound.elapse {dt : Us} {s : State} (h : s.PoolSound) : (s.elapse dt).PoolSound :=
  have before : s.Sound true [] := State.poolSound_iff.1 h
  have still : (s.elapse dt).Sound true [] := before
  State.poolSound_iff.2 still

/-! ## The kind byte (R105, R106, R110) -/

section kind

variable {r : Reception} {b : Fin 8} {b0 b1 kind : Byte} {s : State}

/-- A claim is allowed as the reserve rule says (R110). -/
theorem Pool.claimAllowed_kind {p : Pool} : p.claimAllowed (classOfKind kind) = true ↔
    ((kind = 2 ∨ kind = 3 ∨ kind = 4) ∧ 1 ≤ p.freeCount) ∨ (¬ (kind = 2 ∨ kind = 3 ∨ kind = 4) ∧ 3 ≤ p.freeCount) := by
  rw [classOfKind_eq]
  by_cases urgent : kind = 2 ∨ kind = 3 ∨ kind = 4
  · rw [if_pos urgent, Pool.claimAllowed, decide_eq_true_eq]
    exact ⟨fun h => .inl ⟨urgent, h⟩, fun h => h.elim And.right fun other => absurd urgent other.1⟩
  · rw [if_neg urgent, Pool.claimAllowed, decide_eq_true_eq]
    exact ⟨fun h => .inr ⟨urgent, h⟩, fun h => h.elim (fun other => absurd other.1 urgent) And.right⟩

/-- The frame being taken in the buffer claimed for it. -/
def State.claimed (r : Reception) (b : Fin 8) (header : List Byte) (kind : Byte) (s : State) : State :=
  (s.setReception { r with latch := header, buf := some b }).setBuf b
    { state := .receiving, cls := some (classOfKind kind), frame := header, level := some r.level }

theorem State.kindByte_claims {header : List Byte} (allowed : s.pool.claimAllowed (classOfKind kind) = true) :
    ∃ b, (s.buf b).state = .free ∧ s.kindByte r header kind = (s.claimed r b header kind).recount := by
  obtain ⟨b, first⟩ := Pool.exists_firstFree (Pool.freeCount_pos_of_claimAllowed allowed)
  refine ⟨b, Pool.free_of_firstFree first, ?_⟩
  rw [State.kindByte, if_pos allowed, first]
  rfl

theorem State.kindByte_refused {header : List Byte} (refused : ¬ s.pool.claimAllowed (classOfKind kind) = true) :
    s.kindByte r header kind = (s.setReception { r with latch := header, refused := true }).count .rxNobuf := if_neg refused

variable {header : List Byte}

theorem State.claimed_buf : (s.claimed r b header kind).buf b =
    { state := .receiving, cls := some (classOfKind kind), frame := header, level := some r.level } := by
  rw [State.claimed, State.buf_setBuf, if_pos rfl]

theorem State.claimed_freeCount (free : (s.buf b).state = .free) :
    s.pool.freeCount = (s.claimed r b header kind).pool.freeCount + 1 := Pool.freeCount_claim free nofun

/-- The frame claimed for keeps its bytes, class and level through the recount. -/
theorem State.claimed_recount : ((s.claimed r b header kind).recount.buf b).cls = some (classOfKind kind) ∧
    ((s.claimed r b header kind).recount.buf b).frame = header ∧
      ((s.claimed r b header kind).recount.buf b).level = some r.level := by
  have taken : ((s.claimed r b header kind).buf b).state ≠ .free := by rw [State.claimed_buf]; nofun
  obtain ⟨-, cls, frame, level⟩ := (State.recount_offers (s.claimed r b header kind)).frames b taken
  rw [State.claimed_buf] at cls frame level
  exact ⟨cls, frame, level⟩

/-- It stands RECEIVING in a sound pool, and wherever the claim raises no flag. -/
theorem State.claimed_receiving (taking : s.radio.reception = some r) (early : r.latch = []) (free : (s.buf b).state = .free)
    (claims : s.kindByte r [b0, b1, kind] kind = (s.claimed r b [b0, b1, kind] kind).recount)
    (stands : s.PoolSound ∨ s.pool.busy = true ∨ 5 ≤ s.pool.freeCount) :
    ((s.claimed r b [b0, b1, kind] kind).recount.buf b).state = .receiving := by
  obtain sound | quiet := stands
  · have after := (State.poolSound_iff.1 sound).kindByte (b0 := b0) (b1 := b1) (kind := kind) taking early
    rw [claims] at after
    exact (after.reception_stands (r := { r with latch := [b0, b1, kind], buf := some b })
      (congrArg Radio.reception (State.recount_offers _).radio) rfl).1.1
  · have count := State.claimed_freeCount (r := r) (header := [b0, b1, kind]) (kind := kind) free
    have flagged : (s.claimed r b [b0, b1, kind] kind).recount = (s.claimed r b [b0, b1, kind] kind).flagged :=
      State.recount_flagged (quiet.imp id fun many => by omega)
    rw [flagged]
    exact congrArg Buffer.state State.claimed_buf

/-- A claim takes no place (R117). -/
theorem State.claimed_placeFree {c : FrameClass} (sound : s.PoolSound) (free : (s.buf b).state = .free) :
    (s.claimed r b header kind).placeFree c = s.placeFree c := by
  have before := State.poolSound_iff.1 sound
  have current : ∀ x ∈ (s.claimed r b header kind).tu.current, ((s.claimed r b header kind).buf x.buf).cls = some x.cls := by
    intro x current
    obtain ⟨sending, cls⟩ := before.current_stands current
    have apart : x.buf ≠ b := fun eq => nomatch (eq ▸ sending).symm.trans free
    rw [State.claimed, State.buf_setBuf, if_neg apart]
    exact cls
  have same : (s.claimed r b header kind).placesTaken c = s.placesTaken c :=
    (State.placesTaken_eq current).trans (before.placesTaken c).symm
  rw [Bool.eq_iff_iff, State.placeFree_iff, State.placeFree_iff, same]

/-- The flag after a claim in a sound pool (R112). -/
theorem State.claimed_busy (sound : s.PoolSound) (free : (s.buf b).state = .free) :
    (s.claimed r b header kind).recount.pool.busy = (s.pool.busy || decide (s.pool.freeCount ≤ 4)) := by
  have count := State.claimed_freeCount (r := r) (header := header) (kind := kind) free
  have settled : s.pool.FlagSettled := (State.poolSound_iff.1 sound).pool_settled
  have busy : (s.claimed r b header kind).pool.busy = s.pool.busy := rfl
  rw [State.recount_busy, busy, busyAfter]
  cases low : s.pool.busy with
  | true =>
    have few : ¬ 5 ≤ s.pool.freeCount := fun many => nomatch low.symm.trans (settled.2 many)
    rw [if_pos rfl, Bool.true_or]
    exact decide_eq_true (by omega)
  | false =>
    rw [if_neg nofun, Bool.false_or]
    exact decide_eq_decide.2 (by omega)

theorem exec_kindByteArrival {dt : Us} (taking : s.radio.reception = some r) (early : r.latch = []) :
    exec (.kindByteArrival dt b0 b1 kind) s = .next (State.finish s ((s.elapse dt).kindByte r [b0, b1, kind] kind)) := by
  change execKindByteArrival dt b0 b1 kind s = _
  refine State.event_eq ?_
  rw [show (s.elapse dt).radio.reception = some r from taking]
  exact if_pos early

end kind

/-! ## The seventh byte (R105) -/

section header

variable {dt : Us} {flags a0 a1 len : Byte} {r : Reception} {s : State}

theorem exec_seventhHeaderByte (taking : s.radio.reception = some r) (latched : r.latch ≠ []) (first : r.bodyLen = none) :
    exec (.seventhHeaderByte dt flags a0 a1 len) s =
      .next (State.finish s ((s.elapse dt).headerEnd r [flags, a0, a1, len] len)) := by
  change execSeventhHeaderByte dt flags a0 a1 len s = _
  refine State.event_eq ?_
  rw [show (s.elapse dt).radio.reception = some r from taking]
  exact if_pos ⟨latched, first⟩

/-- The header's bytes in the buffer claimed for the frame. -/
def State.headed (r : Reception) (b : Fin 8) (rest : List Byte) (len : Byte) (s : State) : State :=
  ((s.stopGuard .header).setFrame b ((s.buf b).frame ++ rest)).setReception { r with bodyLen := some len }

theorem State.headerEnd_claimed {b : Fin 8} {rest : List Byte} (buf : r.buf = some b) : s.headerEnd r rest len =
    if 48 < len.toNat then (s.headed r b rest len).frameEnded b r.level 0 else s.headed r b rest len := by
  obtain ⟨_, _, _, _, _⟩ := r
  cases buf
  rfl

theorem State.headerEnd_refused {rest : List Byte} (buf : r.buf = none) : s.headerEnd r rest len =
    if 48 < len.toNat then (s.stopGuard .header).discardEnded
    else (s.stopGuard .header).setReception { r with latch := r.latch ++ rest, bodyLen := some len } := by
  obtain ⟨_, _, _, _, _⟩ := r
  cases buf
  rfl

/-- A claimed frame of too great a length is counted and freed (R105, R111). -/
theorem State.headerEnd_long {b : Fin 8} {rest : List Byte} (buf : r.buf = some b) (long : 48 < len.toNat) :
    s.headerEnd r rest len = ((s.headed r b rest len).frameReleased.count .rxFormat).freeAll [b] := by
  rw [State.headerEnd_claimed buf, if_pos long, State.frameEnded_invalid (validate_cut _ _)]

end header

/-- Settles O29: the claim with its recount, the refusal, and the seventh byte by its length. -/
theorem headerBytes : Obligations.HeaderBytes := by
  refine ⟨fun dt b0 b1 kind r s taking early => ⟨fun allowed => ?_, fun refused => ?_⟩,
    fun dt flags a0 a1 len r s taking latched first => ⟨fun b buf short => ?_, fun buf short => ?_, fun long => ?_⟩⟩
  · have may : (s.elapse dt).pool.claimAllowed (classOfKind kind) = true := Pool.claimAllowed_kind.2 allowed
    obtain ⟨b, free, claims⟩ := State.kindByte_claims (r := r) (header := [b0, b1, kind]) may
    have run := exec_kindByteArrival (dt := dt) (b0 := b0) (b1 := b1) (kind := kind) taking early
    rw [claims] at run
    obtain ⟨cls, frame, level⟩ := State.claimed_recount (s := s.elapse dt) (r := r) (b := b) (header := [b0, b1, kind]) (kind := kind)
    have offers := State.recount_offers ((s.elapse dt).claimed r b [b0, b1, kind] kind)
    refine ⟨_, b, run, free, ?_, ?_, ?_, fun stands => ?_, fun sound => ⟨?_, fun low few place => ?_⟩, ?_, ?_, ?_, ?_⟩
    · rw [State.finish_buf]
      exact cls
    · rw [State.finish_buf]
      exact frame
    · rw [State.finish_buf]
      exact level
    · rw [State.finish_buf]
      exact State.claimed_receiving (s := s.elapse dt) taking early free claims (stands.imp_left .elapse)
    · rw [State.finish_pool]
      exact State.claimed_busy (s := s.elapse dt) sound.elapse free
    · have count := State.claimed_freeCount (s := s.elapse dt) (r := r) (header := [b0, b1, kind]) (kind := kind) free
      have settled : s.pool.FlagSettled := (State.poolSound_iff.1 sound).pool_settled
      have many : 4 ≤ s.pool.freeCount := by
        refine Classical.byContradiction fun less => ?_
        exact nomatch low.symm.trans (settled.1 (by omega))
      have same : (s.elapse dt).pool.freeCount = s.pool.freeCount := rfl
      have inFlight := State.recount_raises (s := (s.elapse dt).claimed r b [b0, b1, kind] kind) low (by omega)
        ⟨decide_eq_true (by omega), (State.claimed_placeFree sound.elapse free).trans place⟩
      rw [State.ownInFlight_congr (State.finish_pool _ _) (State.finish_tu _ _)]
      exact inFlight
    · rw [State.finish_radio, offers.radio]
      rfl
    · rw [State.finish_nt, (State.recount_frame _).nt]
      rfl
    · rw [State.finish_counters, offers.counters]
      rfl
    · rw [State.finish_fu, offers.fu]
      rfl
  · have may : ¬ (s.elapse dt).pool.claimAllowed (classOfKind kind) = true := mt Pool.claimAllowed_kind.1 refused
    rw [exec_kindByteArrival taking early, State.kindByte_refused may]
    rfl
  · rw [exec_seventhHeaderByte taking latched first, State.headerEnd_claimed buf, if_neg (by omega)]
    rfl
  · rw [exec_seventhHeaderByte taking latched first, State.headerEnd_refused buf, if_neg (by omega)]
    rfl
  · refine ⟨_, exec_seventhHeaderByte taking latched first, ?_⟩
    cases buf : r.buf with
    | none =>
      rw [State.headerEnd_refused buf, if_pos long]
      simp only [State.finish_radio, State.finish_guards, State.finish_nt, State.finish_fu, State.finish_counters,
        State.finish_pool]
      exact ⟨rfl, rfl, rfl, rfl, rfl, fun _ => ⟨rfl, rfl⟩, fun claimed => absurd rfl claimed⟩
    | some b =>
      rw [State.headerEnd_long buf long]
      let counted := (((s.elapse dt).headed r b [flags, a0, a1, len] len).frameReleased).count .rxFormat
      have frame : counted.TxFrame (counted.freeAll [b]) := State.freeAll_frame _ _
      have serves : counted.Serves (counted.freeAll [b]) := State.freeAll_serves _ _
      simp only [State.finish_radio, State.finish_guards, State.finish_nt, State.finish_fu, State.finish_counter]
      refine ⟨?_, ?_, ?_, frame.nt, frame.fires, nofun, fun _ quiet => ?_⟩
      · exact congrArg Radio.reception (serves.radio nofun)
      · exact congrArg Guards.header frame.guards
      · exact congrArg Guards.frame frame.guards
      · refine ((serves.counters quiet).2 .rxFormat nofun).trans ?_
        exact (State.counter_count _ _ _).trans (if_pos rfl)

end Sys2Proof.Machine
end

section
/-! SUPPORT. With the radio held off and no frame in progress (R113): offers, originations and the service of the waiters add
entries at the ends of the queues and leave the frames that stand. -/
namespace Sys2Proof.Machine

/-- The radio is held off and no frame is in progress (R113, R115). -/
structure State.Down (s : State) : Prop where
  owner : s.radio.owner = .heldOff
  current : s.tu.current = none

/-- An entry's buffer and origin mark. -/
def TxEntry.place (e : TxEntry) : Fin 8 × OriginMark := (e.buf, e.mark)

/-- A buffer stands in a queue for an own frame (R118, R137). -/
def State.QueuedOwn (b : Fin 8) (s : State) : Prop :=
  (s.buf b).state = .queued ∧ ∃ y ∈ s.tu.urgent ++ s.tu.routine, y.buf = b ∧ y.mark = .own

/-- What a station whose radio is held off does from `s` to `t`: the queues grow at their ends, a watch that is not stopped
goes on, and of the buffers that `relays` does not name those taken stand, but for those of `gone`, which are freed; a FREE or
freed one is taken for an own frame alone. -/
structure State.Awaits (relays : Fin 8 → Prop) (gone : List (Fin 8)) (s t : State) : Prop where
  radio : t.radio = s.radio
  current : t.tu.current = s.tu.current
  phase : t.tu.phase = s.tu.phase
  backoff : t.tu.backoff = s.tu.backoff
  urgent : s.tu.urgent.map TxEntry.place <+: t.tu.urgent.map TxEntry.place
  watched : s.tu.watch ≠ .stopped → t.tu.watch = s.tu.watch ∧ s.tu.urgent <+: t.tu.urgent
  routine : s.tu.routine <+: t.tu.routine
  taken : ∀ b, ¬ relays b → b ∉ gone → (s.buf b).state ≠ .free → t.buf b = s.buf b
  freed : ∀ b, ¬ relays b → s.buf b = .empty ∨ b ∈ gone → t.buf b = .empty ∨ t.QueuedOwn b

section relations

variable {relays : Fin 8 → Prop} {gone gone' : List (Fin 8)} {s t u : State}

theorem State.Awaits.down (h : s.Awaits relays gone t) (down : s.Down) : t.Down :=
  ⟨(congrArg Radio.owner h.radio).trans down.owner, h.current.trans down.current⟩

theorem State.Awaits.place_mem (h : s.Awaits relays gone t) {y : TxEntry} (mem : y ∈ s.tu.urgent ++ s.tu.routine) :
    ∃ z ∈ t.tu.urgent ++ t.tu.routine, z.buf = y.buf ∧ z.mark = y.mark := by
  obtain mem | mem := List.mem_append.1 mem
  · obtain ⟨z, zmem, eq⟩ := List.mem_map.1 (h.urgent.subset (List.mem_map_of_mem (f := TxEntry.place) mem))
    obtain ⟨buf, mark⟩ := Prod.mk.inj eq
    exact ⟨z, List.mem_append_left _ zmem, buf, mark⟩
  · exact ⟨y, List.mem_append_right _ (h.routine.subset mem), rfl, rfl⟩

theorem State.Awaits.trans (h : s.Awaits relays gone t) (k : t.Awaits relays gone' u) : s.Awaits relays (gone ++ gone') u where
  radio := k.radio.trans h.radio
  current := k.current.trans h.current
  phase := k.phase.trans h.phase
  backoff := k.backoff.trans h.backoff
  urgent := h.urgent.trans k.urgent
  watched := fun runs =>
    have ⟨watch, queue⟩ := h.watched runs
    have ⟨watch', queue'⟩ := k.watched (by rw [watch]; exact runs)
    ⟨watch'.trans watch, queue.trans queue'⟩
  routine := h.routine.trans k.routine
  taken := fun b other apart held => by
    obtain ⟨apart, apart'⟩ := not_or.1 (mt List.mem_append.2 apart)
    have same := h.taken b other apart held
    exact (k.taken b other apart' (by rw [same]; exact held)).trans same
  freed := fun b other free => by
    by_cases last : b ∈ gone'
    · exact k.freed b other (.inr last)
    · have first : s.buf b = .empty ∨ b ∈ gone := free.imp_right fun mem => (List.mem_append.1 mem).resolve_right last
      obtain empty | ⟨queued, y, mem, buf, own⟩ := h.freed b other first
      · exact k.freed b other (.inl empty)
      · have same := k.taken b other last (by rw [queued]; nofun)
        obtain ⟨z, zmem, zbuf, zmark⟩ := k.place_mem mem
        exact .inr ⟨by rw [same]; exact queued, z, zmem, zbuf.trans buf, zmark.trans own⟩

theorem prefix_of_eq {α : Type} {l m : List α} (same : m = l) : l <+: m := same ▸ List.prefix_rfl

theorem State.Awaits.of_eq (radio : t.radio = s.radio) (tu : t.tu = s.tu) (bufs : t.pool.bufs = s.pool.bufs) :
    s.Awaits relays [] t := by
  have same : ∀ b, t.buf b = s.buf b := fun b => by rw [State.buf, State.buf, Pool.get, Pool.get, bufs]
  refine ⟨radio, by rw [tu], by rw [tu], by rw [tu], ?_, fun _ => ?_, ?_, fun b _ _ _ => same b, fun b _ free => .inl ?_⟩
  · exact prefix_of_eq (by rw [tu])
  · exact ⟨congrArg Tu.watch tu, prefix_of_eq (by rw [tu])⟩
  · exact prefix_of_eq (by rw [tu])
  · exact (same b).trans (free.resolve_right List.not_mem_nil)

theorem State.Awaits.refl (s : State) : s.Awaits relays [] s := .of_eq rfl rfl rfl

/-! ## The operations of the transmit unit (R118, R119, R124, R126) -/

theorem State.Down.select (down : s.Down) : s.select = s := State.select_of_not fun can => can.2.2 down.owner

theorem State.Down.currentIs (down : s.Down) (c : FrameClass) : s.currentIs c = false := by
  rw [State.currentIs, State.currentClass, down.current]
  rfl

theorem State.Down.preempt (down : s.Down) : s.preempt = s := by
  refine if_neg fun routine => ?_
  rw [down.currentIs] at routine
  exact absurd routine.1 nofun

theorem State.Down.leads (down : s.Down) : s.currentLeads = false := by
  rw [State.currentLeads, down.currentIs]
  rfl

theorem State.Down.startWatch (down : s.Down) : s.Awaits relays [] s.startWatch := by
  by_cases stopped : s.tu.watch = .stopped
  · cases urgent : s.tu.urgent with
    | nil =>
      rw [State.startWatch_none down.leads urgent]
      exact .refl s
    | cons e rest =>
      rw [State.startWatch_head stopped down.leads urgent]
      refine ⟨rfl, rfl, rfl, rfl, ?_, fun runs => absurd stopped runs, List.prefix_rfl, fun _ _ _ _ => rfl,
        fun b _ free => .inl (free.resolve_right List.not_mem_nil)⟩
      rw [urgent]
      exact List.prefix_rfl
  · rw [State.startWatch_of_ne stopped]
    exact .refl s

/-- An offer of a buffer that was FREE, for an own frame, or that `relays` names. -/
theorem State.Down.accept {b : Fin 8} {mark : OriginMark} {c : FrameClass} (down : s.Down) (tu : t.tu = s.tu)
    (radio : t.radio = s.radio) (bufs : ∀ a, a ≠ b → t.buf a = s.buf a)
    (place : mark = .own ∧ (s.buf b).state = .free ∨ relays b) : s.Awaits relays [] (t.accept b mark c) := by
  have bufs' : ∀ a, a ≠ b → (t.moveBuf b .queued).buf a = s.buf a := fun a other => by
    rw [State.buf_moveBuf, if_neg other]
    exact bufs a other
  have queued : ((t.moveBuf b .queued).buf b).state = .queued := by rw [State.buf_moveBuf, if_pos rfl]
  have taken : ∀ a, ¬ relays a → (s.buf a).state ≠ .free → (t.moveBuf b .queued).buf a = s.buf a := fun a other held =>
    bufs' a fun eq => place.elim (fun own => held (eq ▸ own.2)) fun named => other (eq ▸ named)
  have freed : ∀ a, ¬ relays a → s.buf a = .empty → (t.moveBuf b .queued).buf a = .empty ∨
      a = b ∧ mark = .own := fun a other empty => by
    by_cases eq : a = b
    · exact .inr ⟨eq, place.elim And.left fun named => absurd (eq ▸ named) other⟩
    · exact .inl ((bufs' a eq).trans empty)
  cases c with
  | urgent =>
    have down' : (t.queueUrgent b mark).Down := ⟨(congrArg Radio.owner radio).trans down.owner, (congrArg Tu.current tu).trans down.current⟩
    rw [State.accept_urgent, down'.preempt, down'.select]
    refine State.Awaits.trans (gone := []) (t := t.queueUrgent b mark) ⟨radio, ?_, ?_, ?_, ?_, fun runs => ?_, ?_,
      fun a other _ held => taken a other held, fun a other free => ?_⟩ down'.startWatch
    · exact (congrArg Tu.current tu : t.tu.current = s.tu.current)
    · exact (congrArg Tu.phase tu : t.tu.phase = s.tu.phase)
    · exact (congrArg Tu.backoff tu : t.tu.backoff = s.tu.backoff)
    · rw [State.queueUrgent, tu]
      exact (List.prefix_append _ _).map _
    · rw [State.queueUrgent, tu]
      exact ⟨rfl, List.prefix_append _ _⟩
    · exact prefix_of_eq (by rw [State.queueUrgent, tu])
    · refine (freed a other (free.resolve_right List.not_mem_nil)).imp id ?_
      rintro ⟨rfl, own⟩
      exact ⟨queued, _, List.mem_append_left _ (List.mem_append_right _ List.mem_cons_self), rfl, own⟩
  | routine =>
    have down' : (t.queueRoutine b mark).Down := ⟨(congrArg Radio.owner radio).trans down.owner, (congrArg Tu.current tu).trans down.current⟩
    rw [State.accept_routine, down'.select]
    refine ⟨radio, ?_, ?_, ?_, ?_, fun runs => ?_, ?_, fun a other _ held => taken a other held, fun a other free => ?_⟩
    · exact (congrArg Tu.current tu : t.tu.current = s.tu.current)
    · exact (congrArg Tu.phase tu : t.tu.phase = s.tu.phase)
    · exact (congrArg Tu.backoff tu : t.tu.backoff = s.tu.backoff)
    · exact prefix_of_eq (by rw [State.queueRoutine, tu])
    · exact ⟨by rw [State.queueRoutine, tu], prefix_of_eq (by rw [State.queueRoutine, tu])⟩
    · rw [State.queueRoutine, tu]
      exact List.prefix_append _ _
    · refine (freed a other (free.resolve_right List.not_mem_nil)).imp id ?_
      rintro ⟨rfl, own⟩
      exact ⟨queued, _, List.mem_append_right _ (List.mem_append_right _ List.mem_cons_self), rfl, own⟩

/-! ## Originations, looks and the service of the waiters (R112, R137, R139) -/

theorem State.Down.recount (down : s.Down) : s.Awaits relays [] s.recount := by
  obtain eq | ⟨b, free, -, eq⟩ := State.recount_cases s
  · rw [eq]
    exact .of_eq rfl rfl rfl
  · rw [eq]
    refine down.accept rfl rfl (fun a other => ?_) (.inl ⟨rfl, free⟩)
    rw [State.observationIn, State.buf_setBuf, if_neg other]
    rfl

theorem State.Down.originate {o : OwnFrame} (down : s.Down) (made : s.originate o = some t) : s.Awaits relays [] t := by
  obtain ⟨v, bare, rfl⟩ := State.originate_eq_some made
  obtain ⟨-, b, free, rfl⟩ := State.originateBare_some bare
  generalize filled : s.setBuf b { state := .queued, cls := some o.cls, frame := s.composeOwn o, level := none } = x
  have own : s.Awaits relays [] ((x.recordOwn o).accept b .own o.cls) := by
    refine down.accept ?_ ?_ (fun a other => ?_) (.inl ⟨rfl, free⟩)
    · rw [(State.recordOwn_keeps o x).2, ← filled]
      rfl
    · rw [State.recordOwn_eq, ← filled]
      rfl
    · rw [State.buf_congr (State.recordOwn_keeps o x).1, ← filled, State.buf_setBuf, if_neg other]
  exact own.trans (own.down down).recount

theorem State.Down.look (down : s.Down) : s.Awaits relays [] s.look := by
  unfold State.look
  split
  · exact .refl s
  · split
    · rename_i made
      exact (down.originate made).trans (.of_eq rfl rfl rfl)
    · split
      · exact .refl s
      · exact .of_eq rfl rfl rfl

theorem State.Down.serveOwn {w : Waiter} {o : OwnFrame} (down : s.Down) :
    s.Awaits relays [] (match s.originate o with
      | some t => t.dropWaiter w
      | none => s) := by
  split
  · rename_i made
    exact (down.originate made).trans (.of_eq rfl rfl rfl)
  · exact .refl s

theorem State.Down.serveOne {w : Waiter} (down : s.Down) (named : ∀ b, w = .relay b → relays b) :
    s.Awaits relays [] (s.serveOne w) := by
  cases w with
  | relay b =>
    unfold State.serveOne
    dsimp only
    split
    · have kept : (s.dropRelayWait b).tu = s.tu ∧ (s.dropRelayWait b).radio = s.radio ∧ (s.dropRelayWait b).pool = s.pool := by
        unfold State.dropRelayWait
        split <;> exact ⟨rfl, rfl, rfl⟩
      exact down.accept kept.1 kept.2.1 (fun a _ => State.buf_congr kept.2.2 a) (.inr (named b rfl))
    · exact .refl s
  | fire c e => exact down.serveOwn
  | silence => exact down.serveOwn
  | reset e => exact down.serveOwn

theorem State.Down.serveAll {l : List Waiter} (down : s.Down) (named : ∀ b, .relay b ∈ l → relays b) :
    s.Awaits relays [] (l.foldl State.serveOne s) := by
  induction l generalizing s with
  | nil => exact .refl s
  | cons w l ih =>
    have first : s.Awaits relays [] (s.serveOne w) := down.serveOne fun b eq => named b (eq ▸ List.mem_cons_self)
    exact first.trans (ih (first.down down) fun b mem => named b (List.mem_cons_of_mem _ mem))

theorem State.Down.serveProfile (down : s.Down) : s.Awaits relays [] s.serveProfile := by
  unfold State.serveProfile
  split
  · split
    · rename_i made
      exact (down.originate made).trans (.of_eq rfl rfl rfl)
    · exact .refl s
  · exact .refl s

theorem State.Down.serveHealth (down : s.Down) : s.Awaits relays [] s.serveHealth := by
  unfold State.serveHealth
  split
  · split
    · rename_i made
      exact (down.originate made).trans (.of_eq rfl rfl rfl)
    · exact .refl s
  · exact .refl s

theorem State.Down.serveWaiters (down : s.Down) (named : ∀ b, .relay b ∈ s.fu.waiters → relays b) :
    s.Awaits relays [] s.serveWaiters := by
  have all : s.Awaits relays [] (s.fu.waiters.foldl State.serveOne s) := down.serveAll named
  have profile := (all.down down).serveProfile (relays := relays)
  exact (all.trans profile).trans (profile.down (all.down down)).serveHealth

theorem State.Down.freeBuf (down : s.Down) (b : Fin 8) : s.Awaits relays [b] (s.freeBuf b) := by
  have emptied : s.Awaits relays [b] (s.setBuf b .empty) := by
    refine ⟨rfl, rfl, rfl, rfl, List.prefix_rfl, fun _ => ⟨rfl, List.prefix_rfl⟩, List.prefix_rfl, fun a _ apart _ => ?_,
      fun a _ free => .inl ?_⟩
    · rw [State.buf_setBuf, if_neg (by simpa using apart)]
    · rw [State.buf_setBuf]
      split
      · rfl
      · rename_i other
        exact free.resolve_right (by simpa using other)
  exact emptied.trans (emptied.down down).recount

theorem State.Down.freeAll (down : s.Down) (bs : List (Fin 8)) (named : ∀ b, .relay b ∈ s.fu.waiters → relays b) :
    s.Awaits relays bs (s.freeAll bs) := by
  have freed : ∀ (bs : List (Fin 8)) (u : State), u.Down → u.Awaits relays bs (bs.foldl (fun t b => t.freeBuf b) u) ∧
      (bs.foldl (fun t b => t.freeBuf b) u).fu.waiters ⊆ u.fu.waiters := fun bs => by
    induction bs with
    | nil => exact fun u _ => ⟨.refl u, fun _ => id⟩
    | cons b bs ih =>
      intro u down
      have first : u.Awaits relays [b] (u.freeBuf b) := down.freeBuf b
      obtain ⟨rest, waiters⟩ := ih (u.freeBuf b) (first.down down)
      exact ⟨first.trans rest, fun _ mem => (State.freeBuf_serves b u).waiters (waiters mem)⟩
  unfold State.freeAll
  split
  · exact .refl s
  · obtain ⟨all, waiters⟩ := freed bs s down
    have served := (all.down down).serveWaiters fun b mem => named b (waiters mem)
    have both := all.trans served
    rw [List.append_nil] at both
    exact both

theorem State.Down.tellUnsent (down : s.Down) (b : Bool) : s.Awaits relays [] (s.tellUnsent b) := by
  unfold State.tellUnsent
  split
  · have marked : s.Awaits relays [] { s with faults := s.faults.unsent } := .of_eq rfl rfl rfl
    exact marked.trans (marked.down down).look
  · exact .refl s

theorem State.Down.raise (down : s.Down) (c : FaultCode) (a : Addr) : s.Awaits relays [] (s.raise c a) := by
  have marked : s.Awaits relays [] { s with faults := (s.faults.raise c a s.ms).2 } := .of_eq rfl rfl rfl
  unfold State.raise
  dsimp only
  split
  · have told := marked.trans (.of_eq (t := State.panelRecord .faultRaised s.cfg.address s.cfg.zone c.code (lowByte a)
      { s with faults := (s.faults.raise c a s.ms).2 }) ?_ ?_ ?_)
    · exact told.trans (told.down down).look
    all_goals rw [State.panelRecord_eq]
  · exact marked

/-- The history and the timers of a restart, before the raises (R170, R171). -/
def State.restarted (s : State) : State := { s with sv := { s.sv with
  history := historyAfter s.sv.history s.ms
  stall := s.after (seconds 60)
  failed := s.after (seconds 600) } }

theorem State.recordRestart_eq (s : State) : s.recordRestart =
    if historyFails (historyAfter s.sv.history s.ms) s.ms = true then
      (s.restarted.raise .radioStall s.cfg.address).raise .radioFailed s.cfg.address
    else s.restarted.raise .radioStall s.cfg.address := by
  have cfg : (s.restarted.raise .radioStall s.cfg.address).cfg = s.cfg := (State.raise_frame _ _ s.restarted).cfg
  have eq : s.recordRestart = if historyFails (historyAfter s.sv.history s.ms) s.ms = true then
      (s.restarted.raise .radioStall s.cfg.address).raise .radioFailed (s.restarted.raise .radioStall s.cfg.address).cfg.address
      else s.restarted.raise .radioStall s.cfg.address := rfl
  rw [eq, cfg]

theorem State.Down.recordRestart (down : s.Down) : s.Awaits relays [] s.recordRestart := by
  have recorded : s.Awaits relays [] s.restarted := .of_eq rfl rfl rfl
  have stall := recorded.trans ((recorded.down down).raise .radioStall s.cfg.address)
  rw [State.recordRestart_eq]
  split
  · exact stall.trans ((stall.down down).raise .radioFailed _)
  · exact stall

end relations

end Sys2Proof.Machine
end

section
/-! SUPPORT. The restart of the radio (R113 to R115, R170, R171): the fault list's part, the buffers freed with none waiting, and
the work in its order. -/
namespace Sys2Proof.Machine

/-! ## Marks changed in the fault list (R172, R177) -/

/-- A record's pair and whether it is ACTIVE (R172). -/
def FaultRecord.standing (r : FaultRecord) : FaultCode × Addr × Bool := (r.code, r.subject, r.active)

/-- Two lists of the same records, their report marks aside. -/
structure FaultLog.SameRecords (f g : FaultLog) : Prop where
  records : g.records.map FaultRecord.standing = f.records.map FaultRecord.standing
  loss : g.storageLoss = f.storageLoss

theorem FaultLog.SameRecords.of_map {f g : FaultLog} {mark : FaultRecord → FaultRecord} (records : g.records = f.records.map mark)
    (marks : ∀ r, (mark r).standing = r.standing) (loss : g.storageLoss = f.storageLoss) : f.SameRecords g := by
  refine ⟨?_, loss⟩
  rw [records, List.map_map]
  exact List.map_congr_left fun r _ => marks r

theorem FaultLog.SameRecords.refl (f : FaultLog) : f.SameRecords f := ⟨rfl, rfl⟩

theorem FaultLog.SameRecords.trans {f g h : FaultLog} (a : f.SameRecords g) (b : g.SameRecords h) : f.SameRecords h :=
  ⟨b.records.trans a.records, b.loss.trans a.loss⟩

section same

variable {f g : FaultLog} {c : FaultCode} {a : Addr}

theorem FaultLog.SameRecords.length (h : f.SameRecords g) : g.records.length = f.records.length := by
  simpa using congrArg List.length h.records

theorem FaultLog.SameRecords.exists_iff (h : f.SameRecords g) {P : FaultCode × Addr × Bool → Prop} :
    (∃ r ∈ g.records, P r.standing) ↔ ∃ r ∈ f.records, P r.standing := by
  have mapped (l : List FaultRecord) : (∃ r ∈ l, P r.standing) ↔ ∃ p ∈ l.map FaultRecord.standing, P p := by
    refine ⟨fun ⟨r, mem, holds⟩ => ⟨r.standing, List.mem_map.2 ⟨r, mem, rfl⟩, holds⟩, fun ⟨p, mapped, holds⟩ => ?_⟩
    obtain ⟨r, mem, rfl⟩ := List.mem_map.1 mapped
    exact ⟨r, mem, holds⟩
  rw [mapped, mapped, h.records]

theorem FaultLog.SameRecords.keys (h : f.SameRecords g) :
    g.records.map (fun r => (r.code, r.subject)) = f.records.map (fun r => (r.code, r.subject)) := by
  have pairs (l : List FaultRecord) : l.map (fun r => (r.code, r.subject)) =
      (l.map FaultRecord.standing).map (fun p => (p.1, p.2.1)) := by
    rw [List.map_map]
    rfl
  rw [pairs, pairs, h.records]

theorem FaultLog.SameRecords.active (h : f.SameRecords g) : g.Active c a ↔ f.Active c a :=
  h.exists_iff (P := fun p => p.1 = c ∧ p.2.1 = a ∧ p.2.2 = true)

end same

theorem State.SameRecords.faultStorable {c : FaultCode} {a : Addr} {s t : State} (h : s.faults.SameRecords t.faults) :
    t.FaultStorable c a ↔ s.FaultStorable c a := by
  rw [State.FaultStorable, State.FaultStorable, h.length]
  exact or_congr (h.exists_iff (P := fun p => p.1 = c ∧ p.2.1 = a))
    (or_congr Iff.rfl (h.exists_iff (P := fun p => p.2.2 = false)))

theorem State.look_sameRecords (s : State) : s.faults.SameRecords s.look.faults := by
  unfold State.look
  split
  · exact .refl _
  · split
    · rename_i t made
      have same := (State.originate_frame made).faults
      rw [← same]
      exact .of_map rfl (fun r => by split <;> rfl) rfl
    · split
      · exact .refl _
      · exact ⟨rfl, rfl⟩

theorem State.tellUnsent_sameRecords (b : Bool) (s : State) : s.faults.SameRecords (s.tellUnsent b).faults := by
  unfold State.tellUnsent
  split
  · have marked : s.faults.SameRecords s.faults.unsent := .of_map rfl (fun _ => rfl) rfl
    exact marked.trans (State.look_sameRecords { s with faults := s.faults.unsent })
  · exact .refl _

/-- A raise of an ACTIVE record changes nothing (R173). -/
theorem State.raise_of_active {c : FaultCode} {a : Addr} {s : State} (keyed : s.FaultsKeyed) (active : s.FaultActive c a) :
    s.raise c a = s := by
  obtain ⟨r, mem, code, subject, active⟩ := active
  have same : s.faults.raise c a s.ms = (false, s.faults) := by
    rw [FaultLog.raise, recordOf_eq keyed mem code subject]
    exact if_pos active
  rw [State.raise, same]
  rfl

/-- A raise adds one record at most (R173, R175). -/
theorem FaultLog.raise_length (c : FaultCode) (a : Addr) (now : Ms) (f : FaultLog) :
    (f.raise c a now).2.records.length ≤ f.records.length + 1 := by
  unfold FaultLog.raise
  split
  · split
    · exact Nat.le_succ _
    · exact Nat.le_trans (Nat.le_of_eq (List.length_map _)) (Nat.le_succ _)
  · split
    · exact Nat.le_of_eq List.length_append
    · split
      · exact Nat.le_trans (Nat.le_of_eq List.length_append) (Nat.add_le_add_right (List.length_filter_le _ _) 1)
      · exact Nat.le_succ _

theorem State.raise_length (c : FaultCode) (a : Addr) (s : State) :
    (s.raise c a).faults.records.length ≤ s.faults.records.length + 1 := by
  refine Nat.le_trans (Nat.le_of_eq ?_) (FaultLog.raise_length c a s.ms s.faults)
  unfold State.raise
  dsimp only
  split
  · rw [(State.look_sameRecords _).length, State.panelRecord_faults]
  · rfl

theorem State.raise_serves (c : FaultCode) (a : Addr) (s : State) : s.Serves (s.raise c a) := by
  have marked : s.Serves { s with faults := (s.faults.raise c a s.ms).2 } := .of_eq rfl rfl rfl rfl rfl
  unfold State.raise
  dsimp only
  split
  · exact (marked.trans (State.panelRecord_serves _ _ _ _ _ _)).trans (State.look_serves _)
  · exact marked

theorem State.tellUnsent_serves (b : Bool) (s : State) : s.Serves (s.tellUnsent b) := by
  unfold State.tellUnsent
  split
  · exact .trans (t := { s with faults := s.faults.unsent }) (.of_eq rfl rfl rfl rfl rfl) (State.look_serves _)
  · exact .refl s

/-! ## Buffers freed with none waiting (R109, R112) -/

theorem State.freeBuf_quiet {b : Fin 8} {s : State} (taken : (s.buf b).state ≠ .free)
    (quiet : s.pool.busy = true ∨ 3 ≤ s.pool.freeCount) : (s.freeBuf b).fu = s.fu ∧
      (∀ a, (s.freeBuf b).buf a = if a = b then .empty else s.buf a) ∧
      ((s.freeBuf b).pool.busy = true ∨ 3 ≤ (s.freeBuf b).pool.freeCount) := by
  have count : (s.pool.put b .empty).freeCount = s.pool.freeCount + 1 := Pool.freeCount_free taken
  rw [State.freeBuf_eq taken quiet]
  refine ⟨rfl, fun a => Pool.get_put s.pool b a .empty, ?_⟩
  change (s.pool.busy && decide (s.pool.freeCount < 4)) = true ∨ 3 ≤ (s.pool.put b .empty).freeCount
  rw [count]
  by_cases few : s.pool.freeCount < 4
  · obtain busy | many := quiet
    · exact .inl (by rw [busy, decide_eq_true few]; rfl)
    · exact .inr (by omega)
  · exact .inr (by omega)

theorem State.freeAll_quiet {bs : List (Fin 8)} {s : State} (apart : bs.Nodup) (taken : ∀ b ∈ bs, (s.buf b).state ≠ .free)
    (quiet : s.pool.busy = true ∨ 3 ≤ s.pool.freeCount) (waiters : s.fu.waiters = []) (profile : s.fu.pendingProfile = none)
    (health : s.fu.pendingHealth = false) : ∀ b ∈ bs, (s.freeAll bs).buf b = .empty := by
  have freed : ∀ (bs : List (Fin 8)) (u : State), bs.Nodup → (∀ b ∈ bs, (u.buf b).state ≠ .free) →
      (u.pool.busy = true ∨ 3 ≤ u.pool.freeCount) → (bs.foldl (fun t b => t.freeBuf b) u).fu = u.fu ∧
        (∀ b ∈ bs, (bs.foldl (fun t b => t.freeBuf b) u).buf b = .empty) ∧
        ∀ b, b ∉ bs → (bs.foldl (fun t b => t.freeBuf b) u).buf b = u.buf b := fun bs => by
    induction bs with
    | nil => exact fun u _ _ _ => ⟨rfl, nofun, fun _ _ => rfl⟩
    | cons b bs ih =>
      intro u apart taken quiet
      obtain ⟨new, apart⟩ := List.nodup_cons.1 apart
      obtain ⟨fu, bufs, quiet'⟩ := State.freeBuf_quiet (taken b List.mem_cons_self) quiet
      obtain ⟨fu', empty, rest⟩ := ih (u.freeBuf b) apart (fun a mem => by
        have other : a ≠ b := fun eq => new (eq ▸ mem)
        rw [bufs, if_neg other]
        exact taken a (List.mem_cons_of_mem _ mem)) quiet'
      refine ⟨fu'.trans fu, fun a mem => ?_, fun a out => ?_⟩
      · obtain rfl | mem := List.mem_cons.1 mem
        · exact (rest a new).trans ((bufs a).trans (if_pos rfl))
        · exact empty a mem
      · obtain ⟨other, out⟩ := not_or.1 (mt List.mem_cons.2 out)
        exact (rest a out).trans ((bufs a).trans (if_neg other))
  obtain ⟨fu, empty, -⟩ := freed bs s apart taken quiet
  unfold State.freeAll
  split
  · nofun
  · rw [State.serveWaiters_none]
    · exact empty
    · rw [fu]
      exact waiters
    · rw [fu]
      exact profile
    · rw [fu]
      exact health

end Sys2Proof.Machine
end

section
/-! SUPPORT. The expiry of a radio guard (R113, R114, R168): the restart in its parts, and what each leaves. -/
namespace Sys2Proof.Machine

/-- The buffers of the frame being taken and of a frame given up (R113, R114). -/
def State.restartFrees (strike : Bool) (s : State) : List (Fin 8) :=
  (s.radio.reception.bind (·.buf)).toList ++ (s.radioDown.restartFrame strike).2

/-- The frame in progress at its end: returned or given up. -/
def State.restartReturned (strike : Bool) (s : State) : State := (s.radioDown.restartFrame strike).1

/-- Whether an own FAULT is given up. -/
def State.restartUnsent (strike : Bool) (s : State) : Bool :=
  s.tu.current.any (fun e => s.isOwnFault e) && !(s.radioDown.restartFrame strike).2.isEmpty

/-- The restart, before it is recorded. -/
def State.restartServed (strike : Bool) (s : State) : State :=
  (((s.restartReturned strike).freeAll (s.restartFrees strike)).tellUnsent (s.restartUnsent strike)).startWatch

theorem State.radioRestart_eq (strike : Bool) (s : State) : s.radioRestart strike = (s.restartServed strike).recordRestart := rfl

section parts

variable {strike : Bool} {s : State}

/-- The third strike of the frame in progress (R114). -/
def State.Lost (strike : Bool) (x : TxEntry) (s : State) : Prop := s.tu.current = some x ∧ strike = true ∧ 2 ≤ x.strikes

/-- The frame in progress leaves; the rest of the radio side is as `State.radioDown` puts it. -/
theorem State.restartReturned_rest : let w := s.restartReturned strike
    w = { s.radioDown with tu := w.tu, pool := w.pool, counters := w.counters } ∧ w.tu.current = none ∧ w.tu.phase = .idle ∧
      w.tu.backoff = none := by
  have rest : ∀ v : State, v.tu.phase = .idle → v.tu.backoff = none →
      (v.restartFrame strike).1 = { v with tu := (v.restartFrame strike).1.tu, pool := (v.restartFrame strike).1.pool,
                                           counters := (v.restartFrame strike).1.counters } ∧
      (v.restartFrame strike).1.tu.current = none ∧ (v.restartFrame strike).1.tu.phase = .idle ∧
      (v.restartFrame strike).1.tu.backoff = none := by
    intro v phase backoff
    cases current : v.tu.current with
    | none =>
      have eq : v.restartFrame strike = (v, []) := by simp only [State.restartFrame, current]
      rw [eq]
      exact ⟨rfl, current, phase, backoff⟩
    | some x =>
      by_cases third : strike = true ∧ 2 ≤ x.strikes
      · rw [State.restartFrame_lost current third]
        exact ⟨rfl, rfl, phase, backoff⟩
      · rw [State.restartFrame_returned current (by
          rw [Classical.not_and_iff_not_or_not, Bool.not_eq_true] at third
          exact third.imp id Nat.lt_of_not_le)]
        split
        · exact ⟨rfl, rfl, phase, backoff⟩
        · exact ⟨rfl, rfl, phase, backoff⟩
  exact rest s.radioDown rfl rfl

theorem State.restartReturned_down : (s.restartReturned strike).Down := by
  obtain ⟨eq, current, -⟩ := State.restartReturned_rest (strike := strike) (s := s)
  exact ⟨by rw [eq]; rfl, current⟩

theorem State.restartServed_frame : (s.restartReturned strike).FaultFrame (s.restartServed strike) :=
  ((State.freeAll_frame _ _).fault.trans (State.tellUnsent_frame _ _)).trans (State.startWatch_frame _).fault

theorem State.restartServed_serves : (s.restartReturned strike).Serves (s.restartServed strike) :=
  ((State.freeAll_serves _ _).trans (State.tellUnsent_serves _ _)).trans (State.startWatch_serves _)

theorem State.restartServed_awaits : (s.restartReturned strike).Awaits (fun b => .relay b ∈ s.fu.waiters)
    (s.restartFrees strike) (s.restartServed strike) := by
  have down := State.restartReturned_down (strike := strike) (s := s)
  have fu : (s.restartReturned strike).fu = s.fu := by rw [State.restartReturned_rest.1]; rfl
  have freed := down.freeAll (relays := fun b => .relay b ∈ s.fu.waiters) (s.restartFrees strike) fun b mem => fu ▸ mem
  have told := freed.trans ((freed.down down).tellUnsent (s.restartUnsent strike))
  have served := told.trans (told.down down).startWatch
  rw [List.append_nil, List.append_nil] at served
  exact served

theorem State.restartServed_faults : s.faults.SameRecords (s.restartServed strike).faults := by
  have freed : ((s.restartReturned strike).freeAll (s.restartFrees strike)).faults = s.faults := by
    rw [(State.freeAll_frame _ _).faults, State.restartReturned_rest.1]
    rfl
  have told := State.tellUnsent_sameRecords (s.restartUnsent strike) ((s.restartReturned strike).freeAll (s.restartFrees strike))
  rw [freed] at told
  refine told.trans ⟨?_, ?_⟩ <;> rw [State.restartServed, (State.startWatch_frame _).faults]

theorem State.restartServed_kept : (s.restartServed strike).cfg = s.cfg ∧ (s.restartServed strike).sv = s.sv ∧
    (s.restartServed strike).ms = s.ms := by
  have frame := State.restartServed_frame (strike := strike) (s := s)
  rw [frame.cfg, frame.sv, frame.ms, State.restartReturned_rest.1]
  exact ⟨rfl, rfl, rfl⟩

/-! ## The record of the restart (R170, R171) -/

theorem State.recordRestart_serves (s : State) : s.Serves s.recordRestart := by
  have recorded : s.Serves s.restarted := .of_eq rfl rfl rfl rfl rfl
  rw [State.recordRestart_eq]
  split
  · exact (recorded.trans (State.raise_serves _ _ _)).trans (State.raise_serves _ _ _)
  · exact recorded.trans (State.raise_serves _ _ _)

theorem State.recordRestart_frame (s : State) : s.restarted.FaultFrame s.recordRestart := by
  rw [State.recordRestart_eq]
  split
  · exact (State.raise_frame _ _ _).trans (State.raise_frame _ _ _)
  · exact State.raise_frame _ _ _

theorem historyFails_iff {h : List Ms} {now : Ms} : historyFails h now = true ↔
    ∃ oldest rest, h = oldest :: rest ∧ rest.length = 2 ∧ now - oldest < 600000 := by
  cases h with
  | nil => exact ⟨nofun, nofun⟩
  | cons t l =>
    rw [historyFails, Bool.and_eq_true, decide_eq_true_eq, decide_eq_true_eq, List.length_cons]
    exact ⟨fun ⟨length, recent⟩ => ⟨t, l, rfl, by omega, recent⟩, fun ⟨_, _, eq, length, recent⟩ => by
      cases eq
      exact ⟨by omega, recent⟩⟩

/-- What the raises bring and leave (R170, R171). -/
theorem State.recordRestart_faults (s : State) (keyed : s.FaultsKeyed) :
    let own := s.cfg.address
    let fails := historyFails (historyAfter s.sv.history s.ms) s.ms = true
    (s.FaultStorable .radioStall own → s.recordRestart.FaultActive .radioStall own) ∧
      (fails → s.recordRestart.FaultActive .radioFailed own ∨ s.recordRestart.faults.storageLoss = true) ∧
      (fails → s.faults.records.length < 7 → s.recordRestart.FaultActive .radioFailed own) ∧
      (¬ fails → (s.recordRestart.FaultActive .radioFailed own ↔ s.FaultActive .radioFailed own)) := by
  intro own fails
  have pairs : ((FaultCode.radioStall, own) : FaultCode × Addr) ≠ (.radioFailed, own) := fun eq => nomatch congrArg Prod.fst eq
  have first := State.raise_others (Ne.symm pairs) s.restarted
  have second := State.raise_others pairs (s.restarted.raise .radioStall own)
  have stall (storable : s.FaultStorable .radioStall own) : (s.restarted.raise .radioStall own).FaultActive .radioStall own :=
    State.raise_faultActive storable
  rw [State.recordRestart_eq]
  by_cases failing : fails
  · rw [if_pos failing]
    refine ⟨fun storable => (second.active (first.keys keyed)).2 (stall storable), fun _ => State.raise_stored _ _ _,
      fun _ room => State.raise_faultActive (.inr (.inl ?_)), fun not => absurd failing not⟩
    exact Nat.lt_of_le_of_lt (State.raise_length _ _ s.restarted) (Nat.succ_lt_succ room)
  · rw [if_neg failing]
    exact ⟨stall, fun yes => absurd yes failing, fun yes => absurd yes failing, fun _ => first.active keyed⟩

/-- A restart whose stall is ACTIVE already and that fails nothing leaves every buffer (R170). -/
theorem State.recordRestart_quiet {s : State} (keyed : s.FaultsKeyed) (active : s.FaultActive .radioStall s.cfg.address)
    (fails : ¬ historyFails (historyAfter s.sv.history s.ms) s.ms = true) : s.recordRestart.pool = s.pool := by
  have stall : s.restarted.raise .radioStall s.cfg.address = s.restarted := State.raise_of_active keyed active
  rw [State.recordRestart_eq, if_neg fails, stall]
  rfl

/-! ## The restart whole -/

theorem State.radioRestart_awaits : (s.restartReturned strike).Awaits (fun b => .relay b ∈ s.fu.waiters)
    (s.restartFrees strike) (s.radioRestart strike) := by
  have served := State.restartServed_awaits (strike := strike) (s := s)
  have recorded := served.trans (served.down State.restartReturned_down).recordRestart
  rw [List.append_nil] at recorded
  exact recorded

theorem State.radioRestart_serves : (s.restartReturned strike).Serves (s.radioRestart strike) :=
  State.restartServed_serves.trans (State.recordRestart_serves _)

/-! ## The frame in progress (R114) -/

section frame

variable {x : TxEntry}

theorem State.restart_none (none : s.tu.current = none) : s.radioDown.restartFrame strike = (s.radioDown, []) := by
  have down : s.radioDown.tu.current = .none := none
  simp only [State.restartFrame, down]

theorem State.restart_lost (lost : s.Lost strike x) : s.radioDown.restartFrame strike =
    (State.count .txAbandoned { s.radioDown with tu := { s.radioDown.tu with current := none } }, [x.buf]) :=
  State.restartFrame_lost (s := s.radioDown) lost.1 lost.2

theorem State.restart_back (current : s.tu.current = some x) (kept : ¬ s.Lost strike x) : s.radioDown.restartFrame strike =
    ((if (s.buf x.buf).cls = some .urgent then
      State.moveBuf x.buf .queued { s.radioDown with tu := { s.radioDown.tu with
        current := none
        urgent := { x.struck strike with headTime := some s.ms } :: s.tu.urgent.map (fun y => { y with headTime := none })
        watch := .running (s.now + 10000000) } }
    else
      State.moveBuf x.buf .queued { s.radioDown with tu := { s.radioDown.tu with
        current := none, routine := x.struck strike :: s.tu.routine } }), []) := by
  refine State.restartFrame_returned (s := s.radioDown) current ?_
  have fewer : ¬ (strike = true ∧ 2 ≤ x.strikes) := fun third => kept ⟨current, third⟩
  rw [Classical.not_and_iff_not_or_not, Bool.not_eq_true] at fewer
  exact fewer.imp id Nat.lt_of_not_le

/-- Unless it is given up nothing of the frame in progress is freed. -/
theorem State.restart_kept (kept : ∀ x, ¬ s.Lost strike x) : (s.radioDown.restartFrame strike).2 = [] := by
  cases current : s.tu.current with
  | none => rw [State.restart_none current]
  | some x => rw [State.restart_back current (kept x)]

theorem State.restartReturned_counter (c : Counter) (other : c ≠ .txAbandoned ∨ ∀ x, ¬ s.Lost strike x) :
    (s.restartReturned strike).counter c = s.counter c := by
  rw [State.restartReturned]
  cases current : s.tu.current with
  | none =>
    rw [State.restart_none current]
    rfl
  | some x =>
    by_cases lost : s.Lost strike x
    · rw [State.restart_lost lost]
      exact (State.counter_count _ _ _).trans (if_neg (other.resolve_right fun kept => kept x lost))
    · rw [State.restart_back current lost]
      split <;> rfl

theorem State.restartReturned_abandoned (lost : s.Lost strike x) :
    (s.restartReturned strike).counter .txAbandoned = min 65535 (s.counter .txAbandoned + 1) := by
  rw [State.restartReturned, State.restart_lost lost]
  exact (State.counter_count _ _ _).trans (if_pos rfl)

/-- The queues of a restart that returns no frame are as they were. -/
theorem State.restartReturned_queues (gone : s.tu.current = none ∨ ∃ x, s.Lost strike x) :
    (s.restartReturned strike).tu.urgent = s.tu.urgent ∧ (s.restartReturned strike).tu.routine = s.tu.routine := by
  rw [State.restartReturned]
  obtain none | ⟨x, lost⟩ := gone
  · rw [State.restart_none none]
    exact ⟨rfl, rfl⟩
  · rw [State.restart_lost lost]
    exact ⟨rfl, rfl⟩

/-- The returned frame's buffer is QUEUED (R114). -/
theorem State.restartReturned_buf (current : s.tu.current = some x) (kept : ¬ s.Lost strike x) (b : Fin 8) :
    (s.restartReturned strike).buf b = if b = x.buf then { s.buf x.buf with state := .queued } else s.buf b := by
  rw [State.restartReturned, State.restart_back current kept]
  split <;> exact State.buf_moveBuf _ _ _ _

/-- A buffer taken after the restart was taken before, if the frame in progress had one. -/
theorem State.restartReturned_taken (sending : ∀ x, s.tu.current = some x → (s.buf x.buf).state ≠ .free) (b : Fin 8)
    (taken : ((s.restartReturned strike).buf b).state ≠ .free) : (s.buf b).state ≠ .free := by
  cases current : s.tu.current with
  | none =>
    rw [State.restartReturned, State.restart_none current] at taken
    exact taken
  | some x =>
    by_cases lost : s.Lost strike x
    · rw [State.restartReturned, State.restart_lost lost] at taken
      exact taken
    · rw [State.restartReturned_buf current lost] at taken
      split at taken
      · rename_i eq
        rw [eq]
        exact sending x current
      · exact taken

theorem State.restartReturned_busy : (s.restartReturned strike).pool.busy = s.pool.busy := by
  rw [State.restartReturned]
  cases current : s.tu.current with
  | none =>
    rw [State.restart_none current]
    rfl
  | some x =>
    by_cases lost : s.Lost strike x
    · rw [State.restart_lost lost]
      rfl
    · rw [State.restart_back current lost]
      split <;> rfl

end frame

/-! ## The restart in a sound pool -/

section sound

variable {x : TxEntry} {b : Fin 8}

/-- A buffer that waits as a relay copy stands as one (R148). -/
theorem State.Sound.relayStands {k : Bool} {out : List Claim} (h : s.Sound k out) (waits : .relay b ∈ s.fu.waiters) :
    (s.buf b).state = .relayWait := by
  obtain ⟨w, mem, rfl, -⟩ := h.relays.waiters.2 b waits
  exact (h.wait_stands mem).1

/-- The buffers a restart frees are apart and taken. -/
theorem State.Sound.restartFrees (h : s.Sound true []) : (s.restartFrees strike).Nodup ∧
    ∀ b ∈ s.restartFrees strike, ((s.restartReturned strike).buf b).state ≠ .free := by
  have down : s.radioDown.Sound true ((s.radio.reception.bind Reception.claim).toList ++ []) :=
    h.takeReception (r := s.radioDown.radio) rfl rfl
  obtain ⟨l, freed, returned⟩ := down.restartFrame strike
  have bufs : s.restartFrees strike = ((s.radio.reception.bind Reception.claim).toList ++ l).map (·.1) := by
    rw [List.map_append, freed, Radio.claim_buf]
    rfl
  have stood := returned.out_perm (out' := (s.radio.reception.bind Reception.claim).toList ++ l) (by
    rw [List.append_nil]
    exact List.perm_append_comm)
  rw [bufs]
  have one := stood.backs.onePlace
  rw [List.map_append] at one
  refine ⟨(List.nodup_append.1 one).1, fun b mem => ?_⟩
  obtain ⟨c, cmem, rfl⟩ := List.mem_map.1 mem
  exact (stood.backs.kept c (List.mem_append_left _ cmem)).1

/-- No own FAULT is given up, none is told of (R177). -/
theorem State.restartUnsent_eq (other : ∀ x, s.Lost strike x → ¬ (x.mark = .own ∧ Frame.kind (s.buf x.buf).frame = 6)) :
    s.restartUnsent strike = false := by
  rw [State.restartUnsent]
  cases current : s.tu.current with
  | none => rfl
  | some x =>
    by_cases lost : s.Lost strike x
    · have told : s.isOwnFault x = false := by
        rw [← Bool.not_eq_true, State.isOwnFault_iff]
        exact other x lost
      rw [Option.any_some, told]
      rfl
    · rw [State.restart_back current lost]
      exact Bool.and_false _

/-- With nothing waiting, no raise and no notice the buffers of a restart stay FREE. -/
theorem State.radioRestart_quiet (sound : s.PoolSound) (keyed : s.FaultsKeyed) (waiters : s.fu.waiters = [])
    (profile : s.fu.pendingProfile = none) (health : s.fu.pendingHealth = false)
    (active : s.FaultActive .radioStall s.cfg.address) (fails : ¬ historyFails (historyAfter s.sv.history s.ms) s.ms = true)
    (quiet : s.pool.busy = true ∨ 3 ≤ s.pool.freeCount)
    (other : ∀ x, s.Lost strike x → ¬ (x.mark = .own ∧ Frame.kind (s.buf x.buf).frame = 6)) :
    ∀ b ∈ s.restartFrees strike, (s.radioRestart strike).buf b = .empty := by
  have h := State.poolSound_iff.1 sound
  obtain ⟨apart, taken⟩ := h.restartFrees (strike := strike)
  have fu : (s.restartReturned strike).fu = s.fu := by rw [State.restartReturned_rest.1]; rfl
  have count : s.pool.freeCount ≤ (s.restartReturned strike).pool.freeCount :=
    Pool.freeCount_le fun b => State.restartReturned_taken (fun x current => by
      rw [(h.current_stands current).1]
      nofun) b
  have unsent := State.restartUnsent_eq other
  intro b mem
  have freed := State.freeAll_quiet apart taken (quiet.imp State.restartReturned_busy.trans fun many => Nat.le_trans many count)
    (by rw [fu]; exact waiters) (by rw [fu]; exact profile) (by rw [fu]; exact health) b mem
  have served : (s.restartServed strike).pool = ((s.restartReturned strike).freeAll (s.restartFrees strike)).pool := by
    rw [State.restartServed, unsent]
    exact (State.startWatch_keeps _).1
  have faults : (s.restartServed strike).faults = s.faults := by
    have freedFaults : ((s.restartReturned strike).freeAll (s.restartFrees strike)).faults = s.faults := by
      rw [(State.freeAll_frame _ _).faults, State.restartReturned_rest.1]
      rfl
    rw [State.restartServed, unsent, (State.startWatch_frame _).faults]
    exact freedFaults
  obtain ⟨cfg, sv, ms⟩ := State.restartServed_kept (strike := strike) (s := s)
  have recorded : (s.restartServed strike).recordRestart.pool = (s.restartServed strike).pool := by
    refine State.recordRestart_quiet ?_ ?_ ?_
    · rw [State.FaultsKeyed, faults]
      exact keyed
    · rw [State.FaultActive, faults, cfg]
      exact active
    · rw [sv, ms]
      exact fails
  exact (State.buf_congr (recorded.trans served) b).trans freed

end sound

end parts

/-! ## The event -/

/-- The guard's expiry counted (R168). -/
def State.guardStruck (dt : Us) (g : GuardName) (s : State) : State :=
  State.count .guardExpired { s with now := s.now + dt, guards := s.guards.put g none }

theorem radioGuard_of_mem {dt : Us} {g : GuardName} {i : Instr} (mem : (g, i) ∈
      [(.header, .headerGuardExpiry dt), (.frame, .frameGuardExpiry dt), (.assessment, .assessmentGuardExpiry dt),
        (.body, .bodyGuardExpiry dt), (.calibration, .calibrationGuardExpiry dt)]) :
    (g = .header ∨ g = .frame ∨ g = .assessment ∨ g = .body ∨ g = .calibration) ∧ i = g.expiry dt := by
  simp only [List.mem_cons, List.not_mem_nil, or_false, Prod.mk.injEq] at mem
  refine ⟨mem.imp And.left (.imp And.left (.imp And.left (.imp And.left And.left))), ?_⟩
  obtain ⟨rfl, rfl⟩ | ⟨rfl, rfl⟩ | ⟨rfl, rfl⟩ | ⟨rfl, rfl⟩ | ⟨rfl, rfl⟩ := mem <;> rfl

theorem exec_radioGuardExpiry {dt e : Us} {g : GuardName} {s : State}
    (radio : g = .header ∨ g = .frame ∨ g = .assessment ∨ g = .body ∨ g = .calibration)
    (timer : s.guards.get g = some e) (due : e ≤ s.now + dt) (settled : s.settled = true) :
    exec (g.expiry dt) s = .next (State.finish s ((s.guardStruck dt g).radioRestart (decide (g = .body)))) := by
  rw [exec_settled (exec_guardExpiry_due timer due) settled]
  obtain rfl | rfl | rfl | rfl | rfl := radio <;> rfl

theorem State.guardStruck_lost {dt : Us} {g : GuardName} {x : TxEntry} {s : State} :
    (s.guardStruck dt g).Lost (decide (g = .body)) x ↔ s.tu.current = some x ∧ g = .body ∧ 2 ≤ x.strikes := by
  rw [State.Lost, decide_eq_true_eq]
  rfl

/-- What the restart leaves of the blocks apart from the transmit path (R113, R170). -/
structure State.RestartLeaves (s t : State) : Prop where
  radio : t.radio = { owner := .heldOff, rx := .off, sampleEnd := none, waitSince := none, waitEnd := none, reception := none }
  guards : t.guards = { s.guards with header := none, frame := none, assessment := none, body := none,
                                      calibration := some (s.now + 3000) }
  same : s.SameDetection t
  sv : t.sv = { s.sv with
    history := historyAfter s.sv.history s.ms
    stall := some (s.now + 60000000)
    failed := some (s.now + 600000000) }

theorem State.radioRestart_leaves (strike : Bool) (s : State) : s.RestartLeaves (s.radioRestart strike) := by
  have awaits := State.radioRestart_awaits (strike := strike) (s := s)
  have serves := State.radioRestart_serves (strike := strike) (s := s)
  obtain ⟨rest, -⟩ := State.restartReturned_rest (strike := strike) (s := s)
  have served := State.restartServed_frame (strike := strike) (s := s)
  have recorded := State.recordRestart_frame (s.restartServed strike)
  obtain ⟨cfg, sv, ms⟩ := State.restartServed_kept (strike := strike) (s := s)
  have now : (s.restartServed strike).now = s.now := by rw [served.now, rest]; rfl
  refine ⟨?_, ?_, ?_, ?_⟩
  · rw [awaits.radio, rest]
    rfl
  · have assessment := serves.assessment (by rw [rest]; rfl)
    have served' : (s.restartServed strike).restarted.guards = (s.restartServed strike).guards := rfl
    have guards : (s.radioRestart strike).guards =
        { s.radioDown.guards with assessment := (s.radioRestart strike).guards.assessment } := by
      rw [State.radioRestart_eq, recorded.guards, served', served.guards, rest]
    rw [assessment] at guards
    exact guards
  · have returned : s.SameDetection (s.restartReturned strike) := by
      rw [rest]
      exact ⟨rfl, rfl, rfl, rfl, rfl, rfl, rfl, rfl⟩
    have marked : (s.restartServed strike).SameDetection (s.restartServed strike).restarted :=
      ⟨rfl, rfl, rfl, rfl, rfl, rfl, rfl, rfl⟩
    exact ((returned.trans served.sameDetection).trans marked).trans recorded.sameDetection
  · have kept : (s.restartServed strike).restarted.sv = { (s.restartServed strike).sv with
        history := historyAfter (s.restartServed strike).sv.history (s.restartServed strike).ms
        stall := some ((s.restartServed strike).now + 60000000)
        failed := some ((s.restartServed strike).now + 600000000) } := rfl
    rw [State.radioRestart_eq, recorded.sv, kept, sv, ms, now]

/-- What the restart leaves of the fault list (R170, R171). -/
theorem State.radioRestart_faults (strike : Bool) {s : State} (keyed : s.FaultsKeyed) :
    let own := s.cfg.address
    let t := s.radioRestart strike
    let fails := historyFails (historyAfter s.sv.history s.ms) s.ms = true
    (s.FaultStorable .radioStall own → t.FaultActive .radioStall own) ∧
      (fails → t.FaultActive .radioFailed own ∨ t.faults.storageLoss = true) ∧
      (fails → s.faults.records.length < 7 → t.FaultActive .radioFailed own) ∧
      (¬ fails → (t.FaultActive .radioFailed own ↔ s.FaultActive .radioFailed own)) := by
  have same := State.restartServed_faults (strike := strike) (s := s)
  obtain ⟨cfg, sv, ms⟩ := State.restartServed_kept (strike := strike) (s := s)
  have served := State.recordRestart_faults (s.restartServed strike) (by
    rw [State.FaultsKeyed, same.keys]
    exact keyed)
  dsimp only at served
  rw [cfg, sv, ms, State.SameRecords.faultStorable same, same.length] at served
  obtain ⟨stall, loss, room, rest⟩ := served
  exact ⟨stall, loss, room, fun fails => (rest fails).trans same.active⟩

/-- The queues and buffers after the restart in a sound pool (R114). -/
theorem State.radioRestart_frame {strike : Bool} {x : TxEntry} {s : State} (sound : s.PoolSound)
    (current : s.tu.current = some x) (kept : ¬ s.Lost strike x) :
    let t := s.radioRestart strike
    let back : TxEntry := x.struck strike
    t.buf x.buf = { s.buf x.buf with state := .queued } ∧
      ((s.buf x.buf).cls = some .urgent → t.tu.watch = .running (s.now + 10000000) ∧
        ∃ rest, t.tu.urgent = { back with headTime := some s.ms } :: rest ∧ s.tu.urgent.map (·.buf) <+: rest.map (·.buf)) ∧
      ((s.buf x.buf).cls = some .routine →
        ∃ rest, t.tu.routine = back :: rest ∧ s.tu.routine.map (·.buf) <+: rest.map (·.buf)) := by
  have h := State.poolSound_iff.1 sound
  have awaits := State.radioRestart_awaits (strike := strike) (s := s)
  have back := State.restart_back current kept
  obtain ⟨sending, -⟩ := h.current_stands current
  refine ⟨?_, fun urgent => ?_, fun routine => ?_⟩
  · have returned := State.restartReturned_buf current kept x.buf
    rw [if_pos rfl] at returned
    refine (awaits.taken x.buf (fun waits => ?_) (fun mem => ?_) ?_).trans returned
    · exact nomatch sending.symm.trans (h.relayStands waits)
    · rw [State.restartFrees, back, List.append_nil, Option.mem_toList, Option.bind_eq_some_iff] at mem
      obtain ⟨r, taking, buf⟩ := mem
      exact nomatch (h.reception_stands taking buf).1.1.symm.trans sending
    · rw [returned]
      nofun
  · have tu : (s.restartReturned strike).tu.watch = .running (s.now + 10000000) ∧ (s.restartReturned strike).tu.urgent =
        { x.struck strike with headTime := some s.ms } :: s.tu.urgent.map (fun y => { y with headTime := none }) := by
      rw [State.restartReturned, back, if_pos urgent]
      exact ⟨rfl, rfl⟩
    obtain ⟨watch, more, queue⟩ := awaits.watched (by rw [tu.1]; nofun)
    rw [tu.2] at queue
    refine ⟨watch.trans tu.1, _, queue.symm, ?_⟩
    have heads : (s.tu.urgent.map (fun y => { y with headTime := none })).map (·.buf) = s.tu.urgent.map (·.buf) := by
      rw [List.map_map]
      rfl
    rw [← heads]
    exact (List.prefix_append _ more).map _
  · have tu : (s.restartReturned strike).tu.routine = x.struck strike :: s.tu.routine := by
      rw [State.restartReturned, back, if_neg (by rw [routine]; nofun)]
      rfl
    obtain ⟨more, queue⟩ := awaits.routine
    rw [tu] at queue
    refine ⟨_, queue.symm, ?_⟩
    exact (List.prefix_append _ more).map _

theorem State.Awaits.urgent_bufs {relays : Fin 8 → Prop} {gone : List (Fin 8)} {s t : State} (h : s.Awaits relays gone t) :
    s.tu.urgent.map (·.buf) <+: t.tu.urgent.map (·.buf) := by
  have bufs (l : List TxEntry) : l.map (·.buf) = (l.map TxEntry.place).map Prod.fst := by
    rw [List.map_map]
    rfl
  rw [bufs, bufs]
  exact h.urgent.map _

theorem State.mem_restartFrees {strike : Bool} {b : Fin 8} {s : State} (freed : (∃ r, s.radio.reception = some r ∧ r.buf = some b) ∨
    ∃ x, s.Lost strike x ∧ x.buf = b) : b ∈ s.restartFrees strike := by
  obtain ⟨r, taking, buf⟩ | ⟨x, lost, rfl⟩ := freed
  · refine List.mem_append_left _ ?_
    rw [taking, Option.bind_some, buf]
    exact List.mem_singleton_self b
  · refine List.mem_append_right _ ?_
    rw [State.restart_lost lost]
    exact List.mem_singleton_self _

/-- Settles O33: the restart's record and faults, the frame in progress, and the freed buffers. -/
theorem radioGuardRestarts : Obligations.RadioGuardRestarts := by
  intro dt e g i s mem timer due settled ms own history fails lost
  obtain ⟨radio, rfl⟩ := radioGuard_of_mem mem
  have run := exec_radioGuardExpiry radio timer due settled
  have leaves := State.radioRestart_leaves (decide (g = .body)) (s.guardStruck dt g)
  have awaits := State.radioRestart_awaits (strike := decide (g = .body)) (s := s.guardStruck dt g)
  have serves := State.radioRestart_serves (strike := decide (g = .body)) (s := s.guardStruck dt g)
  obtain ⟨-, current, phase, backoff⟩ := State.restartReturned_rest (strike := decide (g = .body)) (s := s.guardStruck dt g)
  have lost_iff (x : TxEntry) : (s.guardStruck dt g).Lost (decide (g = .body)) x ↔ lost x := State.guardStruck_lost
  have fails_iff : historyFails history ms = true ↔ fails := historyFails_iff
  have guards : (s.guardStruck dt g).guards = s.guards.put g none := rfl
  have poolSound (sound : s.PoolSound) : (s.guardStruck dt g).PoolSound :=
    have before : s.Sound true [] := State.poolSound_iff.1 sound
    have after : (s.guardStruck dt g).Sound true [] := before
    State.poolSound_iff.2 after
  have quiet (health : s.fu.pendingHealth = false) :
      ((s.guardStruck dt g).restartReturned (decide (g = .body))).fu.pendingHealth = false := by
    rw [State.restartReturned_rest.1]
    exact health
  have counter (health : s.fu.pendingHealth = false) (c : Counter) (other : c ≠ .txPreempted)
      (kept : c ≠ .txAbandoned ∨ ∀ x, ¬ (s.guardStruck dt g).Lost (decide (g = .body)) x) :
      ((s.guardStruck dt g).radioRestart (decide (g = .body))).counter c = (s.guardStruck dt g).counter c :=
    ((serves.counters (quiet health)).2 c other).trans (State.restartReturned_counter c kept)
  refine ⟨_, run, ?_⟩
  simp only [State.finish_radio, State.finish_guards, State.finish_tu, State.finish_sv, State.finish_counter,
    State.finish_faultActive, State.finish_faults, State.finish_buf, leaves.radio, leaves.sv, awaits.current, awaits.phase,
    awaits.backoff, current, phase, backoff]
  refine ⟨trivial, ?_, trivial, trivial, trivial, rfl, rfl, rfl, fun health => ⟨?_, fun ⟨x, third⟩ => ?_, fun kept => ?_⟩,
    fun keyed => ?_, .finish (dt := dt) ?_, fun sound keyed => ⟨fun x inProgress kept => ?_, fun gone => ?_, fun b freed => ?_⟩⟩
  · rw [leaves.guards, guards]
    obtain rfl | rfl | rfl | rfl | rfl := radio <;> rfl
  · refine (counter health .guardExpired nofun (.inl nofun)).trans ?_
    exact (State.counter_count _ _ _).trans (if_pos rfl)
  · refine ((serves.counters (quiet health)).2 .txAbandoned nofun).trans ?_
    rw [State.restartReturned_abandoned ((lost_iff x).2 third)]
    exact congrArg (fun n => min 65535 (n + 1)) ((State.counter_count _ _ _).trans (if_neg nofun))
  · refine (counter health .txAbandoned nofun (.inr fun x third => kept x ((lost_iff x).1 third))).trans ?_
    exact (State.counter_count _ _ _).trans (if_neg nofun)
  · obtain ⟨stall, loss, room, rest⟩ := State.radioRestart_faults (decide (g = .body)) (s := s.guardStruck dt g) keyed.faults
    exact ⟨stall, loss ∘ fails_iff.2, room ∘ fails_iff.2, fun not => rest (not ∘ fails_iff.1)⟩
  · exact State.SameDetection.trans (t := s.guardStruck dt g) ⟨rfl, rfl, rfl, rfl, rfl, rfl, rfl, rfl⟩ leaves.same
  · have frame := State.radioRestart_frame (poolSound sound) inProgress (mt (lost_iff x).1 kept)
    have back : x.struck (decide (g = .body)) = { x with strikes := if g = .body then x.strikes + 1 else x.strikes } := by
      simp only [TxEntry.struck, decide_eq_true_eq]
    dsimp only at frame
    rw [back] at frame
    exact frame
  · have queues := State.restartReturned_queues (strike := decide (g = .body)) (s := s.guardStruck dt g)
      (gone.imp id fun ⟨x, third⟩ => ⟨x, (lost_iff x).2 third⟩)
    have urgent := awaits.urgent_bufs
    have routine := awaits.routine.map (·.buf)
    rw [queues.1] at urgent
    rw [queues.2] at routine
    exact ⟨urgent, routine⟩
  · have mem := State.mem_restartFrees (strike := decide (g = .body)) (s := s.guardStruck dt g)
      (freed.imp id fun ⟨x, third, buf⟩ => ⟨x, (lost_iff x).2 third, buf⟩)
    refine ⟨awaits.freed b (fun waits => ?_) (.inr mem), fun waiters profile health active fails flag other => ?_⟩
    · have relay := (State.poolSound_iff.1 sound).relayStands waits
      obtain ⟨r, taking, buf⟩ | ⟨x, third, rfl⟩ := freed
      · exact nomatch ((State.poolSound_iff.1 sound).reception_stands taking buf).1.1.symm.trans relay
      · exact nomatch ((State.poolSound_iff.1 sound).current_stands third.1).1.symm.trans relay
    · exact State.radioRestart_quiet (poolSound sound) keyed.faults waiters profile health active
        (mt fails_iff.1 fails) flag (fun x third => other x ((lost_iff x).1 third)) b mem

end Sys2Proof.Machine
end

section
/-! SUPPORT. The RESET actions (R58, R127, R146, R177, R194): what each part leaves, and the presses of a PANEL station's lines
(R152 to R154, R192, R193). -/
namespace Sys2Proof.Machine

/-! ## The notice to the detection unit (R58) -/

/-- The detection record as the RESET actions leave it, the profile and the observation timer aside (R58). -/
structure Detection.AtRest (d : Detection) : Prop where
  state : d.state = .quiet
  verifyStart : d.verifyStart = none
  cause : d.cause = none
  evidence : d.evidence = none
  refresh : d.refresh = none

/-- The notice alone (R58). -/
def State.quieted (s : State) : State := { s with det := { s.det with
  state := .quiet, verifyStart := none, hyst := 0, sat := 0, refresh := none, cause := none, evidence := none } }

/-- The notice with the pending profile taken into force (R56, R58). -/
def State.quietedTaken (s : State) : State := if s.det.state = .verify then s.quieted.takePending else s.quieted

theorem State.resetNotice_eq (s : State) :
    s.resetNotice = if s.det.state = .quiet then s.quietedTaken else s.quietedTaken.announceState := rfl

theorem Detection.AtRest.profileTaken {d : Detection} (h : d.AtRest) (now : Us) : (d.profileTaken now).AtRest := by
  unfold Detection.profileTaken
  split
  · exact { h with }
  · exact h

section notice

variable {s : State}

theorem State.quietedTaken_rest : s.quietedTaken.det.AtRest := by
  have quieted : s.quieted.det.AtRest := ⟨rfl, rfl, rfl, rfl, rfl⟩
  unfold State.quietedTaken
  split
  · rw [(State.takePending_frame s.quieted).det]
    exact quieted.profileTaken _
  · exact quieted

theorem State.resetNotice_rest : s.resetNotice.det.AtRest := by
  have taken := State.quietedTaken_rest (s := s)
  rw [State.resetNotice_eq]
  split
  · exact taken
  · rw [(State.announceState_frame s.quietedTaken).det]
    exact { taken with }

theorem State.resetNotice_judge : s.JudgeFrame s.resetNotice := by
  have quieted : s.JudgeFrame s.quieted := State.FaultFrame.judge (.refl s.quieted)
  have taken : s.JudgeFrame s.quietedTaken := by
    unfold State.quietedTaken
    split
    · exact quieted.trans (State.FaultFrame.judge (State.takePending_frame s.quieted))
    · exact quieted
  rw [State.resetNotice_eq]
  split
  · exact taken
  · exact taken.trans (State.announceState_judge _)

theorem State.takePending_offers (s : State) : s.OffersQuietly s.takePending := by
  unfold State.takePending
  split
  · rename_i p _
    have taken := State.takeProfile_offers p { s with det := { s.det with pendingProfile := none } }
    exact { taken with }
  · exact ⟨.refl s, rfl, rfl, rfl⟩

theorem State.resetNotice_fu : s.resetNotice.fu = s.fu := by
  have taken : s.quietedTaken.fu = s.fu := by
    unfold State.quietedTaken
    split
    · exact (State.takePending_offers s.quieted).fu
    · rfl
  rw [State.resetNotice_eq]
  split
  · exact taken
  · exact (State.announceState_offers s.quietedTaken).fu.trans taken

end notice

/-! ## The RESET actions in their order (R146) -/

/-- The epoch adopted and the list emptied (R146). -/
def State.adopted (e : BitVec 8) (s : State) : State :=
  { s with fu := { s.fu with epoch := e, fires := [], overflow := false } }

/-- The state before the purge. -/
def State.noticed (e : BitVec 8) (s : State) : State := (s.adopted e).resetNotice

/-- The marks cleared after the purge (R177). -/
def State.resetMarked (e : BitVec 8) (s : State) : State := ((s.noticed e).purge e).faultMarksCleared

theorem State.resetActions_eq (e : BitVec 8) (origin : Addr) (zone : Byte) (s : State) :
    s.resetActions e origin zone = (s.resetMarked e).resetLines e origin zone := rfl

/-! ## The purge in its parts (R127, R146) -/

def State.purgedQueue (e : BitVec 8) (s : State) : State := (s.purgeQueued e).1

def State.purgedCurrent (e : BitVec 8) (s : State) : State := ((s.purgedQueue e).purgeCurrent e).1

/-- The state in which the purge frees its buffers. -/
def State.purged (e : BitVec 8) (s : State) : State := ((s.purgedCurrent e).purgeWaits e).1.purgePending e

/-- The buffers that the purge frees. -/
def State.purgeFrees (e : BitVec 8) (s : State) : List (Fin 8) :=
  (s.purgeQueued e).2 ++ ((s.purgedQueue e).purgeCurrent e).2 ++ ((s.purgedCurrent e).purgeWaits e).2

theorem State.purge_serves (e : BitVec 8) (s : State) : (s.purged e).Serves (s.purge e) :=
  ((State.freeAll_serves (s.purgeFrees e) (s.purged e)).trans (State.select_serves _)).trans (State.startWatch_serves _)

/-- What may wait through the RESET actions with epoch `e` (R146). -/
def Waiter.Outlasts (e : BitVec 8) (w : Waiter) : Prop :=
  w ≠ .silence ∧ (∀ c ed, w ≠ .fire c ed) ∧ ∀ p, w = .reset p → older p e = false

theorem State.purged_waiters {e : BitVec 8} {s : State} : ∀ w ∈ (s.purged e).fu.waiters, w.Outlasts e := by
  intro w mem
  obtain ⟨-, kept⟩ := List.mem_filter.1 mem
  refine ⟨?_, ?_, ?_⟩
  · rintro rfl
    cases kept
  · rintro c ed rfl
    cases kept
  · rintro p rfl
    simpa using kept

/-- The line unit's part changes that unit alone. -/
theorem State.resetLines_eq (e : BitVec 8) (origin : Addr) (zone : Byte) (s : State) :
    s.resetLines e origin zone = { s with lu := (s.resetLines e origin zone).lu } := by
  unfold State.resetLines
  split
  · rw [State.panelRecord_eq]
  · rfl

theorem State.resetLines_panel {e : BitVec 8} {origin : Addr} {zone : Byte} {s : State} (panel : s.isPanel = true) :
    (s.resetLines e origin zone).lu.remote = [] ∧ (s.resetLines e origin zone).lu.remoteOverflow = false := by
  unfold State.resetLines
  rw [if_pos panel]
  dsimp only
  rw [(State.panelRecord_frame _ _ _ _ _ _).lu]
  exact ⟨rfl, rfl⟩

section actions

variable {e : BitVec 8} {s : State}

theorem State.resetMarked_judge : (s.adopted e).JudgeFrame (s.resetMarked e) := by
  refine State.JudgeFrame.trans State.resetNotice_judge ?_
  exact State.FaultFrame.judge (d := (s.noticed e).det) ((State.purge_frame e _).fault.trans (State.faultMarksCleared_frame _))

theorem State.resetMarked_tail : (s.noticed e).FaultFrame (s.resetMarked e) :=
  (State.purge_frame e _).fault.trans (State.faultMarksCleared_frame _)

theorem State.resetMarked_rest : (s.resetMarked e).det.AtRest := by
  rw [(State.resetMarked_tail (e := e) (s := s)).det]
  exact State.resetNotice_rest

theorem State.resetMarked_fires : (s.resetMarked e).fu.epoch = e ∧ (s.resetMarked e).fu.fires = [] ∧
    (s.resetMarked e).fu.overflow = false ∧ (s.resetMarked e).fu.run = s.fu.run := by
  have tail := State.resetMarked_tail (e := e) (s := s)
  have noticed : (s.noticed e).fu = (s.adopted e).fu := State.resetNotice_fu
  rw [tail.epoch, tail.fires, tail.overflow, tail.run, noticed]
  exact ⟨rfl, rfl, rfl, rfl⟩

/-- The looks change no record's reported mark (R176). -/
theorem State.look_unreported {s : State} (none : ∀ r ∈ s.faults.records, r.reported = false) :
    ∀ r ∈ s.look.faults.records, r.reported = false := by
  unfold State.look
  split
  · exact none
  · split
    · rename_i t made
      intro r mem
      obtain ⟨q, qmem, rfl⟩ := List.mem_map.1 mem
      rw [(State.originate_frame made).faults] at qmem
      split <;> exact none q qmem
    · split
      · exact none
      · exact none

theorem State.resetMarked_unreported : ∀ r ∈ (s.resetMarked e).faults.records, r.reported = false := by
  refine State.look_unreported fun r mem => ?_
  obtain ⟨q, -, rfl⟩ := List.mem_map.1 mem
  rfl

/-- What waits after the RESET actions: no FIRE, no SILENCE and no older RESET (R146). -/
theorem State.resetMarked_waiters : ∀ w ∈ (s.resetMarked e).fu.waiters, w.Outlasts e := by
  intro w mem
  have purge := State.purge_serves e (s.noticed e)
  have marked := State.look_serves { (s.noticed e).purge e with faults := ((s.noticed e).purge e).faults.marksCleared }
  exact State.purged_waiters w (purge.waiters (marked.waiters mem))

end actions

/-! ## The presses of a PANEL station's lines (R152 to R154, R192) -/

section presses

variable {dt e : Us} {line : InputLine} {s : State}

/-- The line's level taken (R192). -/
def State.levelTaken (dt : Us) (line : InputLine) (s : State) : State :=
  (s.elapse dt).setInput line { s.lu.input line with level := (s.lu.input line).raw, debounce := none }

/-- In RUN after step 3 the change's work is done at once (R169, R192). -/
theorem exec_debounceEnd_panel {w : HeldWork} (learned : s.sc.learning = .ended) (active : s.sc.inert = false)
    (power : s.su.power = .run) (debounce : (s.lu.input line).debounce = some e) (due : e ≤ s.now + dt)
    (change : (s.lu.input line).raw ≠ (s.lu.input line).level)
    (works : State.inputChanged line (s.lu.input line).raw (s.levelTaken dt line) = (s.levelTaken dt line).timerWork w) :
    exec (.debounceEnd dt line) s = .next (State.finish s ((s.levelTaken dt line).perform w)) := by
  have run := exec_debounceEnd_due debounce due change (State.actsOnInputs_iff.2 ⟨learned, active⟩)
  change exec (.debounceEnd dt line) s = .next (State.finish s (State.inputChanged line (s.lu.input line).raw (s.levelTaken dt line))) at run
  rw [works] at run
  exact exec_inRun run power

theorem State.inputChanged_silence (panel : s.isPanel = true) : s.inputChanged .silence true = s.timerWork .silencePress :=
  if_pos (by rw [panel]; rfl)

theorem State.inputChanged_reset (panel : s.isPanel = true) : s.inputChanged .reset true = s.timerWork .resetPress :=
  if_pos (by rw [panel]; rfl)

theorem State.inputChanged_profile (panel : s.isPanel = true) (level : Bool) :
    s.inputChanged .profile level = s.timerWork (.profileChange (if level then .service else .normal)) := if_pos panel

/-- Nothing sounds where every listed origin is silenced (R145). -/
theorem State.sounding_silenced {l : List FireOrigin} (fires : s.fu.fires = l.map (fun f => { f with silenced := true }))
    (overflow : s.fu.overflow = false) : s.sounding = false := by
  rw [State.sounding, fires, overflow, Bool.or_false, List.any_map]
  exact List.any_eq_false.2 fun f _ => nofun

end presses

end Sys2Proof.Machine
end

section
/-! SUPPORT. The old floods of the transmit path (R127, R146): no operation after a purge brings one, and a body on the air goes
on. -/
namespace Sys2Proof.Machine

/-! ## Selection, entry by entry (R119) -/

/-- The selection of the entry `x`. -/
structure State.Selects (x : TxEntry) (s t : State) : Prop where
  can : s.CanSelect
  from_ : x ∈ s.tu.urgent ∨ x ∈ s.tu.routine ∧ s.tu.urgent = []
  bufs : ∀ b, t.buf b = if b = x.buf then { s.buf x.buf with state := .sending } else s.buf b
  current : t.tu.current = some x
  phase : t.tu.phase = .backoff
  urgent : ∀ y ∈ s.tu.urgent, y ∈ t.tu.urgent ∨ y = x
  urgentOnly : t.tu.urgent ⊆ s.tu.urgent
  routineOnly : t.tu.routine ⊆ s.tu.routine
  watch : t.tu.watch = s.tu.watch

theorem State.select_selects (s : State) : s.select = s ∨ ∃ x, s.Selects x s.select := by
  by_cases can : s.CanSelect
  · unfold State.select
    rw [if_pos (show s.tu.phase = .idle ∧ s.tu.current = none ∧ s.radio.owner ≠ .heldOff from can)]
    split
    · rename_i x rest urgent
      refine .inr ⟨x, can, .inl (urgent ▸ List.mem_cons_self), fun b => State.takeEntry_buf _ _ _, rfl, rfl, fun y mem => ?_,
        ?_, fun _ => id, rfl⟩
      · rw [urgent] at mem
        exact (List.mem_cons.1 mem).symm
      · rw [urgent]
        exact List.subset_cons_self _ _
    · rename_i urgent
      split
      · rename_i x rest routine
        split
        · exact .inl rfl
        · refine .inr ⟨x, can, .inr ⟨routine ▸ List.mem_cons_self, urgent⟩, fun b => State.takeEntry_buf _ _ _, rfl, rfl,
            fun y mem => ?_, fun _ => id, ?_, rfl⟩
          · exact .inl mem
          · rw [routine]
            exact List.subset_cons_self _ _
      · exact .inl rfl
  · exact .inl (State.select_of_not can)

theorem State.Sound.queueUrgent {k : Bool} {out : List Claim} {s : State} {b : Fin 8} {P : Buffer → Prop}
    (h : s.Sound k ((b, P) :: out)) (cls : (s.buf b).cls = some .urgent) (place : s.placeFree .urgent = true)
    (mark : OriginMark) : (s.queueUrgent b mark).Sound k out := by
  have room := State.placeFree_iff.1 place
  rw [h.placesTaken] at room
  exact Holding.toTx (Q := Buffer.Stands .queued .urgent) h nofun ⟨rfl, cls⟩ (txClaims_urgent_concat _ _ _ _)
    (h.tu.urgent_offered ⟨Nat.zero_le 2, rfl⟩ room)

theorem State.Sound.queueRoutine {k : Bool} {out : List Claim} {s : State} {b : Fin 8} {P : Buffer → Prop}
    (h : s.Sound k ((b, P) :: out)) (cls : (s.buf b).cls = some .routine) (place : s.placeFree .routine = true)
    (mark : OriginMark) : (s.queueRoutine b mark).Sound k out := by
  have room := State.placeFree_iff.1 place
  rw [h.placesTaken] at room
  exact Holding.toTx (Q := Buffer.Stands .queued .routine) h nofun ⟨rfl, cls⟩ (txClaims_routine_concat _ _ _ _)
    (h.tu.routine_offered ⟨Nat.zero_le 2, 0, rfl, Nat.zero_le 11⟩ room)

/-! ## Old floods -/

/-- The frame of buffer `b` is what the RESET actions with epoch `e` purge (R127). -/
def State.Old (e : BitVec 8) (b : Fin 8) (s : State) : Prop := Frame.purgedBy e (s.buf b).frame = true

/-- Buffer `b` stands as a relay copy, or with the transmit unit as an urgent frame. -/
def State.Flies (b : Fin 8) (s : State) : Prop :=
  (s.buf b).state = .relayWait ∨ ((s.buf b).state = .queued ∨ (s.buf b).state = .sending) ∧ (s.buf b).cls = some .urgent

/-- From `s` to `t` no old flood comes into the transmit path: those of `t` stood in `s`, none of them in a buffer of `gone`,
and each stood in the path or in a buffer that `relays` names; and a body on the air goes on. -/
structure State.Ages (e : BitVec 8) (relays : Fin 8 → Prop) (gone : List (Fin 8)) (s t : State) : Prop where
  old : ∀ b, t.Old e b → s.Old e b ∧ b ∉ gone
  flies : ∀ b, t.Old e b → t.Flies b → s.Flies b ∨ relays b
  body : s.tu.phase = .body → t.tu.phase = .body ∧ t.tu.current = s.tu.current

section ages

variable {e : BitVec 8} {relays : Fin 8 → Prop} {gone gone' : List (Fin 8)} {k : Bool} {out : List Claim} {s t u : State}

theorem State.Ages.trans (h : s.Ages e relays gone t) (j : t.Ages e relays gone' u) : s.Ages e relays (gone ++ gone') u where
  old := fun b old =>
    have ⟨old', apart'⟩ := j.old b old
    have ⟨old'', apart⟩ := h.old b old'
    ⟨old'', fun mem => (List.mem_append.1 mem).elim apart apart'⟩
  flies := fun b old flies => (j.flies b old flies).elim (h.flies b (j.old b old).1) .inr
  body := fun body =>
    have ⟨body', current'⟩ := h.body body
    have ⟨body'', current''⟩ := j.body body'
    ⟨body'', current''.trans current'⟩

theorem State.Ages.of_eq (bufs : t.pool.bufs = s.pool.bufs) (phase : t.tu.phase = s.tu.phase)
    (current : t.tu.current = s.tu.current) : s.Ages e relays [] t := by
  have same : ∀ b, t.buf b = s.buf b := fun b => by rw [State.buf, State.buf, Pool.get, Pool.get, bufs]
  refine ⟨fun b old => ⟨?_, List.not_mem_nil⟩, fun b _ flies => .inl ?_, fun body => ⟨phase.trans body, current⟩⟩
  · rw [State.Old, same] at old
    exact old
  · rw [State.Flies, same] at flies
    exact flies

theorem State.Ages.refl (s : State) : s.Ages e relays [] s := .of_eq rfl rfl rfl

/-- One buffer's state moves. -/
theorem State.Ages.moved {b : Fin 8} {st : BufState} (bufs : ∀ a, t.buf a = if a = b then { s.buf b with state := st } else s.buf a)
    (flies : s.Old e b → t.Flies b → s.Flies b ∨ relays b)
    (body : s.tu.phase = .body → t.tu.phase = .body ∧ t.tu.current = s.tu.current) : s.Ages e relays [] t := by
  have frame : ∀ a, (t.buf a).frame = (s.buf a).frame := fun a => by
    rw [bufs]
    split
    · rename_i eq
      rw [eq]
    · rfl
  have old : ∀ a, t.Old e a → s.Old e a := fun a old => by
    rw [State.Old, frame] at old
    exact old
  refine ⟨fun a was => ⟨old a was, List.not_mem_nil⟩, fun a was flies' => ?_, body⟩
  by_cases eq : a = b
  · rw [eq] at was flies' ⊢
    exact flies (old b was) flies'
  · rw [State.Flies, bufs, if_neg eq] at flies'
    exact .inl flies'

/-- A selection from sound queues. -/
theorem State.Sound.select_ages (h : s.Sound k out) : s.Ages e relays [] s.select := by
  obtain same | ⟨x, selects⟩ := State.select_selects s
  · rw [same]
    exact .refl s
  · refine .moved selects.bufs (fun _ flies => .inl ?_) fun body => nomatch body.symm.trans selects.can.1
    obtain urgent | ⟨routine, -⟩ := selects.from_
    · have claim : x.queuedClaim .urgent ∈ out ++ (txClaims s.tu.urgent s.tu.routine s.tu.current ++
          (s.fu.relayWaits.map RelayWait.claim ++ (s.radio.reception.bind Reception.claim).toList)) := by
        simp only [txClaims, List.mem_append, List.mem_map]
        exact .inr (.inl (.inl ⟨x, urgent, rfl⟩))
      have stands := (h.backs.kept _ claim).2
      exact .inr ⟨.inl stands.1, stands.2⟩
    · have claim : x.queuedClaim .routine ∈ out ++ (txClaims s.tu.urgent s.tu.routine s.tu.current ++
          (s.fu.relayWaits.map RelayWait.claim ++ (s.radio.reception.bind Reception.claim).toList)) := by
        simp only [txClaims, List.mem_append, List.mem_map]
        exact .inr (.inl (.inr (.inl ⟨x, routine, rfl⟩)))
      have stands := (h.backs.kept _ claim).2
      rw [State.Flies, selects.bufs, if_pos rfl] at flies
      obtain waits | ⟨-, urgent⟩ := flies
      · cases waits
      · exact nomatch stands.2.symm.trans urgent

theorem State.preempt_ages (s : State) : s.Ages e relays [] s.preempt := by
  by_cases preempts : s.currentIs .routine = true ∧ (s.tu.phase = .backoff ∨ s.tu.phase = .assess ∨ s.tu.phase = .preamble)
  · obtain same | ⟨x, current, cls, bufs, -⟩ := State.preempt_cases s
    · rw [same]
      exact .refl s
    · refine .moved (fun a => (bufs a).trans (State.buf_moveBuf _ _ _ _)) (fun _ flies => ?_) fun body => ?_
      · rw [State.Flies, bufs, State.buf_moveBuf, if_pos rfl] at flies
        obtain waits | ⟨-, urgent⟩ := flies
        · cases waits
        · exact nomatch cls.symm.trans urgent
      · rw [body] at preempts
        obtain ⟨-, phase | phase | phase⟩ := preempts <;> cases phase
  · have same : s.preempt = s := if_neg preempts
    rw [same]
    exact .refl s

theorem State.startWatch_ages (s : State) : s.Ages e relays [] s.startWatch := by
  have rest := State.startWatch_rest s
  have phase : s.startWatch.tu.phase = s.tu.phase := by rw [rest]
  refine ⟨fun b old => ⟨?_, List.not_mem_nil⟩, fun b _ flies => .inl ?_, fun body => ⟨phase.trans body, ?_⟩⟩
  · rw [State.Old, State.startWatch_buf] at old
    exact old
  · rw [State.Flies, State.startWatch_buf] at flies
    exact flies
  · refine State.startWatch_current (State.currentLeads_eq_false ?_ ?_) <;> rw [body] <;> nofun

/-- An offer of a frame that is not old, or of a relay copy. -/
theorem State.Sound.accept_ages {b : Fin 8} {P : Buffer → Prop} {c : FrameClass} {mark : OriginMark}
    (h : s.Sound k ((b, P) :: out)) (cls : (s.buf b).cls = some c) (place : s.placeFree c = true)
    (fresh : ¬ s.Old e b ∨ relays b) : s.Ages e relays [] (s.accept b mark c) := by
  cases c with
  | urgent =>
    have queued := h.queueUrgent cls place mark
    have first : s.Ages e relays [] (s.queueUrgent b mark) :=
      .moved (State.buf_moveBuf b · .queued s) (fun old _ => .inr (fresh.resolve_left fun young => young old)) fun body => ⟨body, rfl⟩
    rw [State.accept_urgent]
    exact ((first.trans (State.preempt_ages _)).trans queued.preempt.select_ages).trans (State.startWatch_ages _)
  | routine =>
    have queued := h.queueRoutine cls place mark
    have first : s.Ages e relays [] (s.queueRoutine b mark) :=
      .moved (State.buf_moveBuf b · .queued s) (fun old _ => .inr (fresh.resolve_left fun young => young old)) fun body => ⟨body, rfl⟩
    rw [State.accept_routine]
    exact first.trans queued.select_ages

/-! ## Originations (R137) -/

theorem State.composeOwn_kind (o : OwnFrame) (s : State) : Frame.kind (s.composeOwn o) = o.kind := by
  cases o <;> rfl

/-- An own frame that is no FIRE and no SILENCE is not old. -/
theorem State.composeOwn_young {o : OwnFrame} (fresh : o.kind ≠ 2 ∧ o.kind ≠ 3) (s : State) :
    Frame.purgedBy e (s.composeOwn o) = false := by
  have fire : (o.kind == kindFire) = false := beq_eq_false_iff_ne.2 fresh.1
  have silence : (o.kind == kindSilence) = false := beq_eq_false_iff_ne.2 fresh.2
  rw [Frame.purgedBy, State.composeOwn_kind, fire, silence]
  rfl

theorem Frame.purgedBy_nil : Frame.purgedBy e [] = false := rfl

/-- A buffer's content replaced by a frame that is not old. -/
theorem State.setBuf_ages {b : Fin 8} {x : Buffer} (young : Frame.purgedBy e x.frame = false) (s : State) :
    s.Ages e relays [b] (s.setBuf b x) := by
  have other : ∀ a, (s.setBuf b x).Old e a → a ≠ b := fun a old eq => by
    rw [State.Old, State.buf_setBuf, if_pos eq, young] at old
    cases old
  refine ⟨fun a old => ⟨?_, by simpa using other a old⟩, fun a old flies => .inl ?_, fun body => ⟨body, rfl⟩⟩
  · have apart := other a old
    rw [State.Old, State.buf_setBuf, if_neg apart] at old
    exact old
  · rw [State.Flies, State.buf_setBuf, if_neg (other a old)] at flies
    exact flies

theorem State.Ages.weaken (h : s.Ages e relays gone t) : s.Ages e relays [] t :=
  { h with old := fun b old => ⟨(h.old b old).1, List.not_mem_nil⟩ }

theorem State.Sound.originateBare_ages {o : OwnFrame} (h : s.Sound k out) (made : s.originateBare o = some t)
    (fresh : o.kind ≠ 2 ∧ o.kind ≠ 3) : s.Ages e relays [] t := by
  obtain ⟨⟨-, place⟩, b, free, rfl⟩ := State.originateBare_some made
  have filled := (h.claim free (x := { state := .queued, cls := some o.cls, frame := s.composeOwn o, level := none })
    nofun).recordOwn o
  have composed : s.Ages e relays [] (s.setBuf b { state := .queued, cls := some o.cls, frame := s.composeOwn o, level := none }) :=
    (State.setBuf_ages (State.composeOwn_young fresh s) s).weaken
  generalize set : s.setBuf b { state := .queued, cls := some o.cls, frame := s.composeOwn o, level := none } = v at *
  have recorded : v.Ages e relays [] (v.recordOwn o) := by
    rw [State.recordOwn_eq]
    exact .of_eq rfl rfl rfl
  have buf : (v.recordOwn o).buf b = { state := .queued, cls := some o.cls, frame := s.composeOwn o, level := none } := by
    rw [State.buf_congr (State.recordOwn_keeps o v).1, ← set, State.buf_setBuf, if_pos rfl]
  refine (composed.trans recorded).trans (filled.accept_ages ?_ ?_ (.inl ?_))
  · rw [buf]
  · rw [State.placeFree_iff, filled.placesTaken]
    rw [State.placeFree_iff, h.placesTaken] at place
    rw [(State.recordOwn_keeps o _).2, ← set]
    exact place
  · rw [State.Old, buf, State.composeOwn_young fresh]
    nofun

theorem State.Sound.recount_ages (h : s.Sound k out) : s.Ages e relays [] s.recount := by
  have flagged : s.Ages e relays [] s.flagged := .of_eq rfl rfl rfl
  have sound : s.flagged.Sound true out :=
    { h with
      backs := h.backs.of_bufs rfl
      flag := fun _ => busyAfter_settled _ s.pool }
  unfold State.recount
  dsimp only
  split
  · unfold State.busyObservation
    split
    · exact flagged
    · cases made : State.originateBare .observation s.flagged with
      | none => exact (congrArg (Option.getD · s.flagged) made).symm ▸ flagged
      | some t =>
        have own := sound.originateBare_ages (e := e) (relays := relays) made ⟨by decide, by decide⟩
        exact (congrArg (Option.getD · s.flagged) made).symm ▸ flagged.trans own
  · exact flagged

theorem State.Sound.originate_ages {o : OwnFrame} (h : s.Sound k out) (made : s.originate o = some t)
    (fresh : o.kind ≠ 2 ∧ o.kind ≠ 3) : s.Ages e relays [] t := by
  obtain ⟨v, bare, rfl⟩ := State.originate_eq_some made
  exact (h.originateBare_ages bare fresh).trans (h.originateBare bare).recount_ages

theorem State.Sound.look_ages (h : s.Sound k out) : s.Ages e relays [] s.look := by
  unfold State.look
  split
  · exact .refl s
  · split
    · rename_i made
      have fault : kindFault ≠ 2 ∧ kindFault ≠ 3 := by decide
      exact (h.originate_ages made fault).trans (.of_eq rfl rfl rfl)
    · split
      · exact .refl s
      · exact .of_eq rfl rfl rfl

/-! ## The service of the waiters (R139) -/

theorem State.Sound.serveOne_ages {w : Waiter} (h : s.Sound k out) (waits : ∀ b, w = .relay b → .relay b ∈ s.fu.waiters)
    (outlasts : w.Outlasts e) (named : ∀ b, w = .relay b → relays b) : s.Ages e relays [] (s.serveOne w) := by
  obtain ⟨silence, fire, -⟩ := outlasts
  cases w with
  | relay b =>
    unfold State.serveOne
    dsimp only
    split
    · rename_i place
      obtain ⟨v, found, cls⟩ := h.waiting (waits b rfl)
      have dropped := h.dropRelayWait found
      have first : s.Ages e relays [] (s.dropRelayWait b) := by
        rw [State.dropRelayWait_of found]
        exact .of_eq rfl rfl rfl
      refine first.trans (dropped.accept_ages ?_ ?_ (.inr (named b rfl)))
      · rw [State.dropRelayWait_of found]
        exact cls
      · rw [State.placeFree_iff, dropped.placesTaken, State.dropRelayWait_of found]
        rw [State.placeFree_iff, h.placesTaken] at place
        exact place
    · exact .refl s
  | fire c ed => exact absurd rfl (fire c ed)
  | silence => exact absurd rfl silence
  | reset p =>
    unfold State.serveOne
    dsimp only
    split
    · rename_i made
      exact (h.originate_ages made ⟨by decide, by decide⟩).trans (.of_eq rfl rfl rfl)
    · exact .refl s

theorem State.Sound.serveAll_ages {l : List Waiter} (h : s.Sound k out) (apart : (l.filterMap Waiter.relayBuf).Nodup)
    (waits : ∀ b, .relay b ∈ l → .relay b ∈ s.fu.waiters) (outlasts : ∀ w ∈ l, w.Outlasts e)
    (named : ∀ b, .relay b ∈ l → relays b) : s.Ages e relays [] (l.foldl State.serveOne s) := by
  induction l generalizing s with
  | nil => exact .refl s
  | cons w l ih =>
    have first : s.Ages e relays [] (s.serveOne w) :=
      h.serveOne_ages (fun b eq => waits b (eq ▸ List.mem_cons_self)) (outlasts w List.mem_cons_self)
        fun b eq => named b (eq ▸ List.mem_cons_self)
    have sound : (s.serveOne w).Sound k out := h.serveAll (l := [w])
      (List.Nodup.sublist ((List.singleton_sublist.2 List.mem_cons_self).filterMap _) apart)
      fun b mem => waits b (List.mem_singleton.1 mem ▸ List.mem_cons_self)
    refine first.trans (ih sound (apart.sublist ((List.sublist_cons_self w l).filterMap _)) (fun b mem => ?_)
      (fun v mem => outlasts v (List.mem_cons_of_mem _ mem)) fun b mem => named b (List.mem_cons_of_mem _ mem))
    refine State.serveOne_waiters (fun eq => ?_) (waits b (List.mem_cons_of_mem _ mem))
    subst eq
    exact (List.nodup_cons.1 apart).1 (mem_relayBufs.2 mem)

theorem State.Sound.serveProfile_ages (h : s.Sound k out) : s.Ages e relays [] s.serveProfile := by
  unfold State.serveProfile
  split
  · split
    · rename_i p _ t made
      have profile : kindProfile ≠ 2 ∧ kindProfile ≠ 3 := by decide
      exact (h.originate_ages made profile).trans (.of_eq rfl rfl rfl)
    · exact .refl s
  · exact .refl s

theorem State.Sound.serveHealth_ages (h : s.Sound k out) : s.Ages e relays [] s.serveHealth := by
  unfold State.serveHealth
  split
  · split
    · rename_i made
      exact (h.originate_ages made ⟨by decide, by decide⟩).trans (.of_eq rfl rfl rfl)
    · exact .refl s
  · exact .refl s

theorem State.Sound.serveWaiters_ages (h : s.Sound k out) (outlasts : ∀ w ∈ s.fu.waiters, w.Outlasts e)
    (named : ∀ b, .relay b ∈ s.fu.waiters → relays b) : s.Ages e relays [] s.serveWaiters := by
  have all : (s.fu.waiters.foldl State.serveOne s).Sound k out := h.serveAll h.relays.waiters.1 fun _ => id
  exact ((h.serveAll_ages h.relays.waiters.1 (fun _ => id) outlasts named).trans all.serveProfile_ages).trans
    all.serveProfile.serveHealth_ages

theorem State.Sound.freeBuf_ages {b : Fin 8} {P : Buffer → Prop} (h : s.Sound k ((b, P) :: out)) :
    s.Ages e relays [b] (s.freeBuf b) := by
  have emptied : (s.setBuf b .empty).Sound false out :=
    { h with
      backs := h.backs.release
      flag := nofun }
  exact (State.setBuf_ages Frame.purgedBy_nil s).trans emptied.recount_ages

theorem State.Sound.freeAll_ages {l : List Claim} {bs : List (Fin 8)} (h : s.Sound k (l ++ out)) (bufs : l.map (·.1) = bs)
    (outlasts : ∀ w ∈ s.fu.waiters, w.Outlasts e) (named : ∀ b, .relay b ∈ s.fu.waiters → relays b) :
    s.Ages e relays bs (s.freeAll bs) := by
  subst bufs
  have freed : ∀ (l : List Claim) (u : State), u.Sound k (l ++ out) →
      u.Ages e relays (l.map (·.1)) ((l.map (·.1)).foldl (fun t b => t.freeBuf b) u) ∧
      ((l.map (·.1)).foldl (fun t b => t.freeBuf b) u).fu.waiters ⊆ u.fu.waiters := fun l => by
    induction l with
    | nil => exact fun u _ => ⟨.refl u, fun _ => id⟩
    | cons c l ih =>
      intro u sound
      have sound : u.Sound k ((c.1, c.2) :: (l ++ out)) := sound
      obtain ⟨rest, waiters⟩ := ih (u.freeBuf c.1) sound.freeBuf.settled
      exact ⟨sound.freeBuf_ages.trans rest, fun _ mem => (State.freeBuf_serves c.1 u).waiters (waiters mem)⟩
  obtain ⟨all, waiters⟩ := freed l s h
  have served := h.freeBufs.serveWaiters_ages (e := e) (relays := relays) (fun w mem => outlasts w (waiters mem))
    fun b mem => named b (waiters mem)
  unfold State.freeAll
  split
  · rename_i none
    rw [none]
    exact .refl s
  · have both := all.trans served
    rw [List.append_nil] at both
    exact both

end ages

end Sys2Proof.Machine
end

section
/-! SUPPORT. The purge in a sound pool (R127, R146): what it leaves of the old floods. -/
namespace Sys2Proof.Machine

variable {e : BitVec 8} {k : Bool} {out : List Claim} {s : State}

/-! ## The parts of the purge before the buffers are freed -/

/-- The purge's buffers are out once, and the rest is sound. -/
theorem State.Sound.purged (h : s.Sound k out) (e : BitVec 8) :
    ∃ l : List Claim, l.map (·.1) = s.purgeFrees e ∧ (s.purged e).Sound k (l ++ out) := by
  obtain ⟨l1, bufs1, h1⟩ := h.purgeQueued e
  obtain ⟨l2, bufs2, h2⟩ := h1.purgeCurrent e
  obtain ⟨l3, bufs3, h3⟩ := h2.purgeWaits e
  refine ⟨l1 ++ l2 ++ l3, by rw [List.map_append, List.map_append, bufs1, bufs2, bufs3]; rfl,
    (h3.purgePending e).out_perm ?_⟩
  rw [← List.append_assoc, ← List.append_assoc]
  refine List.Perm.append_right out ?_
  rw [List.append_assoc]
  exact List.perm_append_comm.trans (List.perm_append_comm.append_right l1)

theorem State.dropRelayWait_rest (b : Fin 8) (s : State) : s.dropRelayWait b = { s with fu := (s.dropRelayWait b).fu } := by
  unfold State.dropRelayWait
  split <;> rfl

theorem State.dropWaits_rest (bs : List (Fin 8)) (s : State) : bs.foldl (fun t b => t.dropRelayWait b) s =
    { s with fu := (bs.foldl (fun t b => t.dropRelayWait b) s).fu } := by
  induction bs generalizing s with
  | nil => rfl
  | cons b bs ih =>
    rw [List.foldl_cons, ih, State.dropRelayWait_rest]

theorem State.purged_rest (e : BitVec 8) (s : State) : s.purged e = { s.purgedCurrent e with fu := (s.purged e).fu } := by
  have waits := State.dropWaits_rest ((s.purgedCurrent e).purgeWaits e).2 (s.purgedCurrent e)
  have rest : ((s.purgedCurrent e).purgeWaits e).1 = { s.purgedCurrent e with fu := ((s.purgedCurrent e).purgeWaits e).1.fu } :=
    waits
  unfold State.purged State.purgePending
  rw [rest]

theorem State.stopWatchOf_rest (x : TxEntry) (s : State) :
    s.stopWatchOf x = { s with tu := { s.tu with watch := (s.stopWatchOf x).tu.watch } } := by
  unfold State.stopWatchOf
  split <;> rfl

theorem State.purgeCurrent_rest (e : BitVec 8) (s : State) :
    (s.purgeCurrent e).1.pool = s.pool ∧ (s.purgeCurrent e).1.fu = s.fu := by
  unfold State.purgeCurrent
  split
  · split
    · dsimp only
      rw [State.stopWatchOf_rest, State.stopOperation_eq]
      exact ⟨rfl, rfl⟩
    · exact ⟨rfl, rfl⟩
  · exact ⟨rfl, rfl⟩

/-- A frame in progress outlasts the purge where it is not old, or in its body. -/
theorem State.purgeCurrent_body (body : s.tu.phase = .body) : s.purgeCurrent e = (s, []) := by
  unfold State.purgeCurrent
  split
  · refine if_neg fun gone => ?_
    obtain ⟨-, phase | phase | phase⟩ := gone <;> cases body.symm.trans phase
  · rfl

theorem State.purgeCurrent_old {x : TxEntry} (current : s.tu.current = some x) (old : s.Old e x.buf)
    (phase : s.tu.phase ≠ .idle ∧ s.tu.phase ≠ .body) :
    s.purgeCurrent e = (State.stopWatchOf x { s.stopOperation with tu := { s.stopOperation.tu with current := none } }, [x.buf]) := by
  unfold State.purgeCurrent
  rw [current]
  refine if_pos ⟨old, ?_⟩
  cases stands : s.tu.phase with
  | idle => exact absurd stands phase.1
  | body => exact absurd stands phase.2
  | backoff => exact .inl rfl
  | assess => exact .inr (.inl rfl)
  | preamble => exact .inr (.inr rfl)

theorem State.purged_buf (b : Fin 8) : (s.purged e).buf b = s.buf b := by
  rw [State.purged_rest]
  exact State.buf_congr (State.purgeCurrent_rest e (s.purgedQueue e)).1 b

/-- Before the buffers are freed, an old flood of the path stands in one of them, or is on the air. -/
theorem State.Sound.purged_old (h : s.Sound k []) (idle : s.tu.phase = .idle → s.tu.current = none) {b : Fin 8}
    (old : (s.purged e).Old e b) (flies : (s.purged e).Flies b) :
    b ∈ s.purgeFrees e ∨ s.tu.phase = .body ∧ ∃ x, s.tu.current = some x ∧ x.buf = b := by
  rw [State.Old, State.purged_buf] at old
  rw [State.Flies, State.purged_buf] at flies
  have taken : (s.buf b).state ≠ .free := fun free => by
    rw [free] at flies
    obtain waits | ⟨queued | sending, -⟩ := flies <;> contradiction
  obtain ⟨c, claim, rfl⟩ := List.mem_map.1 (Classical.not_not.1 (mt h.backs.free_iff.2 taken))
  obtain ⟨-, stands⟩ := h.backs.kept c claim
  have asked : c.2 (s.buf c.1) := stands
  rw [List.nil_append, txClaims, List.mem_append, List.mem_append, List.mem_append, List.mem_append] at claim
  simp only [List.mem_map] at claim
  obtain (⟨x, mem, rfl⟩ | ⟨x, mem, rfl⟩ | ⟨x, mem, rfl⟩) | ⟨w, mem, rfl⟩ | received := claim
  · exact .inl (List.mem_append_left _ (List.mem_append_left _ (List.mem_map.2 ⟨x, List.mem_filter.2 ⟨mem, old⟩, rfl⟩)))
  · obtain waits | ⟨-, urgent⟩ := flies
    · exact absurd (asked.1.symm.trans waits) nofun
    · exact absurd (asked.2.symm.trans urgent) nofun
  · have current := Option.mem_toList.1 mem
    by_cases body : s.tu.phase = .body
    · exact .inr ⟨body, x, current, rfl⟩
    · have gone := State.purgeCurrent_old (s := s.purgedQueue e) (e := e) current old
        ⟨fun none => absurd ((idle none).symm.trans current) nofun, body⟩
      refine .inl (List.mem_append_left _ (List.mem_append_right _ ?_))
      rw [gone]
      exact List.mem_cons_self
  · have waits : w ∈ (s.purgedCurrent e).fu.relayWaits := by
      rw [State.purgedCurrent, (State.purgeCurrent_rest e _).2]
      exact mem
    refine .inl (List.mem_append_right _ (List.mem_map.2 ⟨w, List.mem_filter.2 ⟨waits, ?_⟩, rfl⟩))
    rw [State.purgedCurrent, State.buf_congr (State.purgeCurrent_rest e _).1]
    exact old
  · rw [Option.mem_toList] at received
    obtain ⟨r, -, claims⟩ := Option.bind_eq_some_iff.1 received
    obtain ⟨a, -, rfl⟩ := Option.map_eq_some_iff.1 claims
    have receiving := asked.1.1
    rw [receiving] at flies
    obtain waits | ⟨queued | sending, -⟩ := flies <;> contradiction

/-- After the RESET actions no old flood stands in the path but one on the air (R127). -/
theorem State.Sound.purge_old (h : s.Sound k []) (idle : s.tu.phase = .idle → s.tu.current = none) {t : State} {b : Fin 8}
    (aged : (s.purge e).Ages e (fun b => .relay b ∈ (s.purged e).fu.waiters) [] t) (old : t.Old e b) (flies : t.Flies b) :
    t.tu.phase = .body ∧ ∃ x, t.tu.current = some x ∧ x.buf = b := by
  obtain ⟨l, bufs, sound⟩ := h.purged e
  have freed := sound.freeAll_ages (e := e) (relays := fun b => .relay b ∈ (s.purged e).fu.waiters) bufs State.purged_waiters
    fun _ => id
  have whole := ((freed.trans (sound.freeAll bufs).select_ages).trans (State.startWatch_ages _)).trans aged
  obtain ⟨was, kept⟩ := whole.old b old
  have flew : (s.purged e).Flies b := (whole.flies b old flies).elim id fun waits => .inl (sound.relayStands waits)
  obtain frees | ⟨body, x, current, buf⟩ := h.purged_old idle was flew
  · simp [frees] at kept
  · have queue : s.purgedCurrent e = s.purgedQueue e := by
      rw [State.purgedCurrent, State.purgeCurrent_body (s := s.purgedQueue e) body]
    have tu : (s.purged e).tu = (s.purgedQueue e).tu := by rw [State.purged_rest, queue]
    obtain ⟨goes, same⟩ := whole.body (by rw [tu]; exact body)
    exact ⟨goes, x, by rw [same, tu]; exact current, buf⟩

end Sys2Proof.Machine
end

section
/-! SUPPORT. The channel-blocked watch through the RESET actions (R124, R127). -/
namespace Sys2Proof.Machine

variable {k : Bool} {out : List Claim} {s t u : State}

/-! ## What the notice leaves of the urgent frames -/

/-- The urgent frames that a purge may take, and the frame in progress before its body. -/
def Tu.before (tu : Tu) : List TxEntry := tu.urgent ++ (if tu.phase = .body then [] else tu.current.toList)

theorem Tu.mem_before {tu : Tu} {x : TxEntry} : x ∈ tu.before ↔ x ∈ tu.urgent ∨ tu.phase ≠ .body ∧ tu.current = some x := by
  unfold Tu.before
  split <;> simp [*]

/-- The entries a purge may take stand on with their head times, and an IDLE unit is without a frame if it was. -/
structure Tu.Lingers (p q : Tu) : Prop where
  before : ∀ x ∈ p.before, x ∈ q.before
  idle : (p.phase = .idle → p.current = none) → q.phase = .idle → q.current = none

theorem Tu.Lingers.refl (p : Tu) : p.Lingers p := ⟨fun _ => id, id⟩

theorem Tu.Lingers.trans {p q r : Tu} (h : p.Lingers q) (j : q.Lingers r) : p.Lingers r :=
  ⟨fun x mem => j.before x (h.before x mem), fun idle => j.idle (h.idle idle)⟩

theorem Tu.Lingers.of_eq {p q : Tu} (h : q = p) : p.Lingers q := h ▸ .refl p

theorem State.select_lingers (s : State) : s.tu.Lingers s.select.tu := by
  obtain same | ⟨y, selects⟩ := State.select_selects s
  · rw [same]
    exact .refl _
  · refine ⟨fun x mem => ?_, fun _ phase => absurd (selects.phase.symm.trans phase) nofun⟩
    rw [Tu.mem_before] at mem ⊢
    obtain urgent | ⟨-, current⟩ := mem
    · obtain queued | rfl := selects.urgent x urgent
      · exact .inl queued
      · exact .inr ⟨by rw [selects.phase]; nofun, selects.current⟩
    · exact absurd (selects.can.2.1.symm.trans current) nofun

theorem State.queueRoutine_lingers (b : Fin 8) (mark : OriginMark) (s : State) : s.tu.Lingers (s.queueRoutine b mark).tu :=
  ⟨fun _ => id, id⟩

theorem State.accept_routine_lingers (b : Fin 8) (mark : OriginMark) (s : State) :
    s.tu.Lingers (s.accept b mark .routine).tu := by
  rw [State.accept_routine]
  exact (State.queueRoutine_lingers b mark s).trans (State.select_lingers _)

theorem State.recount_lingers (s : State) : s.tu.Lingers s.recount.tu := by
  obtain eq | ⟨b, -, -, eq⟩ := State.recount_cases s
  · rw [eq]
    exact .refl _
  · rw [eq]
    exact (Tu.Lingers.of_eq rfl).trans (State.accept_routine_lingers b .own (s.flagged.observationIn b))

theorem State.originate_lingers {o : OwnFrame} (made : s.originate o = some t) (routine : o.cls = .routine) :
    s.tu.Lingers t.tu := by
  obtain ⟨u, bare, rfl⟩ := State.originate_eq_some made
  obtain ⟨-, b, -, rfl⟩ := State.originateBare_some bare
  rw [routine]
  refine Tu.Lingers.trans ?_ (State.recount_lingers _)
  refine Tu.Lingers.trans (.of_eq ?_) (State.accept_routine_lingers b .own _)
  rw [(State.recordOwn_keeps o _).2]
  rfl

theorem State.requestObservation_lingers (s : State) : s.tu.Lingers s.requestObservation.tu := by
  unfold State.requestObservation
  split
  · exact .refl _
  · cases made : s.originate .observation with
    | none => exact .refl _
    | some t => exact State.originate_lingers made rfl

theorem State.takeProfile_lingers (p : Profile) (s : State) : s.tu.Lingers (s.takeProfile p).tu := by
  unfold State.takeProfile
  dsimp only
  rw [State.panelRecord_eq]
  exact State.requestObservation_lingers { s with det := { s.det with
    profile := p, serviceLimit := if p = .service then s.after (seconds 14400) else none } }

theorem State.quietedTaken_lingers (s : State) : s.tu.Lingers s.quietedTaken.tu := by
  unfold State.quietedTaken
  split
  · unfold State.takePending
    split
    · exact State.takeProfile_lingers _ { s.quieted with det := { s.quieted.det with pendingProfile := none } }
    · exact .refl _
  · exact .refl _

/-- Through the notice to the detection unit the urgent frames stand as they stood. -/
theorem State.resetNotice_lingers (s : State) : s.tu.Lingers s.resetNotice.tu := by
  rw [State.resetNotice_eq]
  split
  · exact State.quietedTaken_lingers s
  · refine (State.quietedTaken_lingers s).trans ?_
    rw [State.announceState_eq]
    refine (Tu.Lingers.of_eq (State.restartObservation_keeps _).2).trans (State.requestObservation_lingers _)

theorem State.resetNotice_frames (s : State) : s.FramesKept s.resetNotice := by
  have taken : s.FramesKept s.quietedTaken := by
    unfold State.quietedTaken
    split
    · exact (State.takePending_offers s.quieted).frames
    · exact .of_eq rfl
  rw [State.resetNotice_eq]
  split
  · exact taken
  · exact taken.trans (State.announceState_offers s.quietedTaken).frames

/-! ## The watch (R124) -/

/-- From `s` to `t` the watch stands, or started at the event's time. -/
structure State.Watches (s t : State) : Prop where
  now : t.now = s.now
  watch : t.tu.watch = s.tu.watch ∨ s.tu.watch = .stopped ∧ t.tu.watch = .running (s.now + 10000000)

theorem State.Watches.refl (s : State) : s.Watches s := ⟨rfl, .inl rfl⟩

theorem State.Watches.of_eq (now : t.now = s.now) (watch : t.tu.watch = s.tu.watch) : s.Watches t := ⟨now, .inl watch⟩

theorem State.Watches.trans (h : s.Watches t) (j : t.Watches u) : s.Watches u := by
  refine ⟨j.now.trans h.now, ?_⟩
  obtain same | ⟨stopped, running⟩ := j.watch
  · rw [same]
    exact h.watch
  · rw [h.now] at running
    obtain before | ⟨-, running'⟩ := h.watch
    · exact .inr ⟨before.symm.trans stopped, running⟩
    · exact absurd (running'.symm.trans stopped) nofun

theorem State.startWatch_watches (s : State) : s.Watches s.startWatch := by
  refine ⟨(State.startWatch_frame s).now, ?_⟩
  unfold State.startWatch
  split
  · rename_i stopped
    split
    · exact .inr ⟨stopped, rfl⟩
    · split
      · exact .inr ⟨stopped, rfl⟩
      · exact .inl rfl
  · exact .inl rfl

theorem State.select_watches (s : State) : s.Watches s.select := .of_eq (State.select_frame s).now (State.select_watch s)

theorem State.accept_watches (b : Fin 8) (mark : OriginMark) (c : FrameClass) (s : State) : s.Watches (s.accept b mark c) := by
  cases c with
  | urgent =>
    rw [State.accept_urgent]
    have first : s.Watches (s.queueUrgent b mark).preempt :=
      .of_eq (State.preempt_frame (s.queueUrgent b mark)).now (State.preempt_urgent_watch (s.queueUrgent b mark)).2.1
    exact (first.trans (State.select_watches _)).trans (State.startWatch_watches _)
  | routine => exact .of_eq (State.accept_frame b mark .routine s).now (State.accept_routine_watch b mark s)

theorem State.recount_watches (s : State) : s.Watches s.recount := .of_eq (State.recount_frame s).now (State.recount_watch s)

theorem State.originate_watches {o : OwnFrame} (made : s.originate o = some t) : s.Watches t := by
  obtain ⟨u, bare, rfl⟩ := State.originate_eq_some made
  obtain ⟨-, b, -, rfl⟩ := State.originateBare_some bare
  refine State.Watches.trans ?_ (State.recount_watches _)
  refine State.Watches.trans (.of_eq ?_ ?_) (State.accept_watches b .own o.cls _)
  · rw [State.recordOwn_eq]
    rfl
  · rw [(State.recordOwn_keeps o _).2]
    rfl

theorem State.serveOne_watches (w : Waiter) (s : State) : s.Watches (s.serveOne w) := by
  cases w with
  | relay b =>
    unfold State.serveOne
    dsimp only
    split
    · refine State.Watches.trans (.of_eq ?_ ?_) (State.accept_watches b .relay .urgent _) <;>
        rw [State.dropRelayWait_rest]
    · exact .refl s
  | fire c ed =>
    unfold State.serveOne
    dsimp only
    split
    · rename_i made
      exact (State.originate_watches made).trans (.of_eq rfl rfl)
    · exact .refl s
  | silence =>
    unfold State.serveOne
    dsimp only
    split
    · rename_i made
      exact (State.originate_watches made).trans (.of_eq rfl rfl)
    · exact .refl s
  | reset p =>
    unfold State.serveOne
    dsimp only
    split
    · rename_i made
      exact (State.originate_watches made).trans (.of_eq rfl rfl)
    · exact .refl s

theorem List.foldl_watches {α : Type} {f : State → α → State} (step : ∀ (a : α) (s : State), s.Watches (f s a)) (l : List α)
    (s : State) : s.Watches (l.foldl f s) := by
  induction l generalizing s with
  | nil => exact .refl s
  | cons a l ih => exact (step a s).trans (ih (f s a))

theorem State.serveWaiters_watches (s : State) : s.Watches s.serveWaiters := by
  have profile : ∀ s : State, s.Watches s.serveProfile := fun s => by
    unfold State.serveProfile
    split
    · split
      · rename_i made
        exact (State.originate_watches made).trans (.of_eq rfl rfl)
      · exact .refl s
    · exact .refl s
  have health : ∀ s : State, s.Watches s.serveHealth := fun s => by
    unfold State.serveHealth
    split
    · split
      · rename_i made
        exact (State.originate_watches made).trans (.of_eq rfl rfl)
      · exact .refl s
    · exact .refl s
  exact ((List.foldl_watches State.serveOne_watches s.fu.waiters s).trans (profile _)).trans (health _)

theorem State.freeAll_watches (bs : List (Fin 8)) (s : State) : s.Watches (s.freeAll bs) := by
  have one : ∀ (b : Fin 8) (s : State), s.Watches (s.freeBuf b) := fun b s =>
    (State.Watches.of_eq (s := s) (t := s.setBuf b .empty) rfl rfl).trans (State.recount_watches _)
  unfold State.freeAll
  split
  · exact .refl s
  · exact (List.foldl_watches one bs s).trans (State.serveWaiters_watches _)

/-- The watch of an old frame stops with it (R127). -/
theorem State.purged_watch {e : BitVec 8} {x : TxEntry} (idle : s.tu.phase = .idle → s.tu.current = none)
    (mem : x ∈ s.tu.before) (old : s.Old e x.buf) (head : x.headTime ≠ none) : (s.purged e).tu.watch = .stopped := by
  have timed : x.headTime.isSome = true := Option.isSome_iff_ne_none.2 head
  have tu : (s.purged e).tu = (s.purgedCurrent e).tu := by rw [State.purged_rest]
  rw [tu]
  have keeps : ∀ u : State, u.tu.watch = .stopped → (u.purgeCurrent e).1.tu.watch = .stopped := fun u stopped => by
    unfold State.purgeCurrent
    split
    · split
      · dsimp only
        unfold State.stopWatchOf
        split
        · rfl
        · rw [State.stopOperation_eq]
          exact stopped
      · exact stopped
    · exact stopped
  obtain urgent | ⟨body, current⟩ := Tu.mem_before.1 mem
  · have gone : x ∈ s.tu.urgent.filter (fun x => Frame.purgedBy e (s.buf x.buf).frame) := List.mem_filter.2 ⟨urgent, old⟩
    exact keeps _ (if_pos (List.any_eq_true.2 ⟨x, gone, timed⟩))
  · rw [State.purgedCurrent, State.purgeCurrent_old (s := s.purgedQueue e) current old
      ⟨fun none => absurd ((idle none).symm.trans current) nofun, body⟩]
    unfold State.stopWatchOf
    rw [if_pos timed]

/-! ## No leading urgent frame -/

/-- No urgent frame leads (R124). -/
structure State.Unled (s : State) : Prop where
  urgent : s.tu.urgent = []
  current : ∀ x ∈ s.tu.current, s.tu.phase = .backoff ∨ s.tu.phase = .assess → (s.buf x.buf).cls ≠ some .urgent

theorem State.unled_iff : s.Unled ↔ s.tu.urgent = [] ∧ s.currentLeads = false := by
  have leads : s.currentLeads = false ↔ ∀ x ∈ s.tu.current, s.tu.phase = .backoff ∨ s.tu.phase = .assess →
      (s.buf x.buf).cls ≠ some .urgent := by
    cases current : s.tu.current with
    | none => simp [State.currentLeads, State.currentIs, State.currentClass, current]
    | some x =>
      simp only [State.currentLeads, State.currentIs_of current, Bool.and_eq_false_iff, Bool.or_eq_false_iff,
        decide_eq_false_iff_not, Option.mem_def, Option.some.injEq, forall_eq']
      grind
  exact ⟨fun h => ⟨h.urgent, leads.2 h.current⟩, fun h => ⟨h.1, leads.1 h.2⟩⟩

/-- With the watch stopped after its start, there was no leading urgent frame. -/
theorem State.startWatch_unled (stopped : s.startWatch.tu.watch = .stopped) : s.startWatch.Unled := by
  have never : s.currentLeads = false ∧ s.tu.urgent = [] := by
    refine Classical.byContradiction fun some => ?_
    have started := State.startWatch_watch (s := s) (by
      by_cases leads : s.currentLeads = true
      · exact .inl leads
      · exact .inr fun urgent => some ⟨by simpa using leads, urgent⟩)
    rw [stopped] at started
    unfold Watch.started at started
    split at started
    · cases started
    · rename_i other
      exact other started.symm
  rw [State.startWatch_none never.1 never.2]
  exact State.unled_iff.2 ⟨never.2, never.1⟩

theorem State.Unled.of_kept (h : s.Unled) (tu : t.tu.urgent = s.tu.urgent ∧ t.tu.current = s.tu.current ∧ t.tu.phase = s.tu.phase)
    (cls : ∀ x ∈ s.tu.current, (t.buf x.buf).cls = (s.buf x.buf).cls) : t.Unled := by
  obtain ⟨urgent, current, phase⟩ := tu
  refine ⟨urgent.trans h.urgent, fun x mem going => ?_⟩
  rw [current] at mem
  rw [phase] at going
  rw [cls x mem]
  exact h.current x mem going

theorem State.Sound.select_unled (h : s.Sound k out) (unled : s.Unled) : s.select.Unled := by
  obtain same | ⟨x, selects⟩ := State.select_selects s
  · rw [same]
    exact unled
  · obtain urgent | ⟨routine, -⟩ := selects.from_
    · rw [unled.urgent] at urgent
      cases urgent
    · refine ⟨List.subset_nil.1 (unled.urgent ▸ selects.urgentOnly), fun y mem _ => ?_⟩
      obtain rfl := Option.some.inj (selects.current.symm.trans mem)
      have stands := (h.backs.kept (x.queuedClaim .routine) (by
        simp only [txClaims, List.mem_append, List.mem_map]
        exact .inr (.inl (.inr (.inl ⟨x, routine, rfl⟩))))).2
      rw [selects.bufs, if_pos rfl]
      exact fun urgent => absurd (stands.2.symm.trans urgent) nofun

theorem State.Sound.accept_unled {b : Fin 8} {P : Buffer → Prop} {mark : OriginMark} (h : s.Sound k ((b, P) :: out))
    (cls : (s.buf b).cls = some .routine) (place : s.placeFree .routine = true) (unled : s.Unled) :
    (s.accept b mark .routine).Unled := by
  rw [State.accept_routine]
  refine (h.queueRoutine cls place mark).select_unled (unled.of_kept ⟨rfl, rfl, rfl⟩ fun x _ => ?_)
  exact State.cls_moveBuf b x.buf .queued s

theorem State.Sound.originateBare_unled {o : OwnFrame} (h : s.Sound k out) (made : s.originateBare o = some t)
    (routine : o.cls = .routine) (unled : s.Unled) : t.Unled := by
  obtain ⟨⟨-, place⟩, b, free, rfl⟩ := State.originateBare_some made
  have filled := (h.claim free (x := { state := .queued, cls := some o.cls, frame := s.composeOwn o, level := none })
    nofun).recordOwn o
  rw [routine] at filled place ⊢
  have tu : (State.recordOwn o (s.setBuf b { state := .queued, cls := some .routine, frame := s.composeOwn o, level := none })).tu =
      s.tu := (State.recordOwn_keeps o _).2
  refine filled.accept_unled ?_ ?_ (unled.of_kept (by rw [tu]; exact ⟨rfl, rfl, rfl⟩) fun x mem => ?_)
  · rw [State.buf_congr (State.recordOwn_keeps o _).1, State.buf_setBuf, if_pos rfl]
  · rw [State.placeFree_iff, filled.placesTaken]
    rw [State.placeFree_iff, h.placesTaken] at place
    rw [tu]
    exact place
  · have apart : x.buf ≠ b := fun eq => by
      have sending := (h.current_stands mem).1
      rw [eq, free] at sending
      cases sending
    rw [State.buf_congr (State.recordOwn_keeps o _).1, State.buf_setBuf, if_neg apart]

theorem State.Sound.recount_unled (h : s.Sound k out) (unled : s.Unled) : s.recount.Unled := by
  have flagged : s.flagged.Unled := unled.of_kept ⟨rfl, rfl, rfl⟩ fun _ _ => rfl
  have sound : s.flagged.Sound true out :=
    { h with
      backs := h.backs.of_bufs rfl
      flag := fun _ => busyAfter_settled _ s.pool }
  unfold State.recount
  dsimp only
  split
  · unfold State.busyObservation
    split
    · exact flagged
    · cases made : State.originateBare .observation s.flagged with
      | none => exact (congrArg (Option.getD · s.flagged) made).symm ▸ flagged
      | some t =>
        exact (congrArg (Option.getD · s.flagged) made).symm ▸ sound.originateBare_unled made rfl flagged
  · exact flagged

theorem State.Sound.look_unled (h : s.Sound k out) (unled : s.Unled) : s.look.Unled := by
  unfold State.look
  split
  · exact unled
  · split
    · rename_i made
      obtain ⟨v, bare, rfl⟩ := State.originate_eq_some made
      have own := (h.originateBare bare).recount_unled (h.originateBare_unled bare rfl unled)
      exact own.of_kept ⟨rfl, rfl, rfl⟩ fun _ _ => rfl
    · split
      · exact unled
      · exact unled.of_kept ⟨rfl, rfl, rfl⟩ fun _ _ => rfl

end Sys2Proof.Machine
end

section
/-! SUPPORT. The RESET actions' outcome (R127, R146), put together. -/
namespace Sys2Proof.Machine

variable {e : BitVec 8} {s : State}

theorem Frame.purgedBy_iff {f : List Byte} :
    Frame.purgedBy e f = true ↔ (Frame.kind f = 2 ∨ Frame.kind f = 3) ∧ older (Frame.epoch f) e = true := by
  rw [Frame.purgedBy, Bool.and_eq_true, Bool.or_eq_true, beq_iff_eq, beq_iff_eq]
  rfl

theorem State.Sound.queued_stands {k : Bool} {out : List Claim} (h : s.Sound k out) {x : TxEntry} (mem : x ∈ s.tu.urgent) :
    (s.buf x.buf).Stands .queued .urgent := by
  refine (h.backs.kept (x.queuedClaim .urgent) ?_).2
  simp only [txClaims, List.mem_append, List.mem_map]
  exact .inr (.inl (.inl ⟨x, mem, rfl⟩))

/-! ## The marks cleared (R177) -/

section marks

variable {k : Bool} {out : List Claim} {relays : Fin 8 → Prop}

theorem State.Sound.faultMarksCleared_ages (h : s.Sound k out) : s.Ages e relays [] s.faultMarksCleared := by
  have marked : s.Ages e relays [] { s with faults := s.faults.marksCleared } := .of_eq rfl rfl rfl
  exact marked.trans (h.withFaults s.faults.marksCleared).look_ages

theorem State.faultMarksCleared_watch (s : State) : s.faultMarksCleared.tu.watch = s.tu.watch :=
  (State.look_reports { s with faults := s.faults.marksCleared }).watch

theorem State.Sound.faultMarksCleared_unled (h : s.Sound k out) (unled : s.Unled) : s.faultMarksCleared.Unled :=
  (h.withFaults s.faults.marksCleared).look_unled (unled.of_kept ⟨rfl, rfl, rfl⟩ fun _ _ => rfl)

end marks

/-! ## From the notice to the marks -/

section purge

/-- After the purge and the marks an old flood in the path is a body on the air (R127). -/
theorem State.Sound.cleared_old (h : s.Sound true []) (idle : s.tu.phase = .idle → s.tu.current = none) {b : Fin 8}
    (old : (s.purge e).faultMarksCleared.Old e b) (flies : (s.purge e).faultMarksCleared.Flies b) :
    (s.purge e).faultMarksCleared.tu.phase = .body ∧ ((s.purge e).faultMarksCleared.buf b).state = .sending := by
  have purged := h.purge e
  obtain ⟨body, x, current, rfl⟩ := h.purge_old idle purged.faultMarksCleared_ages old flies
  exact ⟨body, (purged.faultMarksCleared.current_stands current).1⟩

/-- The watch of a purged frame is stopped, and started afresh on the new leading urgent frame (R127). -/
theorem State.Sound.cleared_watch (h : s.Sound true []) (idle : s.tu.phase = .idle → s.tu.current = none) {x : TxEntry}
    (mem : x ∈ s.tu.before) (old : s.Old e x.buf) (head : x.headTime ≠ none) :
    (s.purge e).faultMarksCleared.tu.watch = .running (s.now + 10000000) ∨
      (s.purge e).faultMarksCleared.tu.watch = .stopped ∧ (s.purge e).faultMarksCleared.Unled := by
  have stopped := State.purged_watch idle mem old head
  have goes : (s.purged e).Watches (s.purge e) :=
    ((State.freeAll_watches _ _).trans (State.select_watches _)).trans (State.startWatch_watches _)
  have now : (s.purged e).now = s.now := goes.now.symm.trans (State.purge_frame e s).now
  rw [State.faultMarksCleared_watch, ← now]
  obtain same | ⟨-, running⟩ := goes.watch
  · exact .inr ⟨same.trans stopped, (h.purge e).faultMarksCleared_unled (State.startWatch_unled (same.trans stopped))⟩
  · exact .inl running

end purge

/-! ## From the epoch's adoption -/

theorem State.Sound.noticed (h : s.Sound true []) (e : BitVec 8) : (s.noticed e).Sound true [] :=
  State.Sound.resetNotice (s := s.adopted e) h

/-- An IDLE unit is without a frame before the purge if it was before the RESET actions. -/
theorem State.noticed_idle (idle : s.tu.phase = .idle → s.tu.current = none) :
    (s.noticed e).tu.phase = .idle → (s.noticed e).tu.current = none :=
  (State.resetNotice_lingers (s.adopted e)).idle idle

theorem State.noticed_now : (s.noticed e).now = s.now := (State.resetNotice_judge (s := s.adopted e)).now

/-- An entry the purge may take stands before it as before the RESET actions. -/
theorem State.Sound.noticed_before (h : s.Sound true []) {x : TxEntry} (mem : x ∈ s.tu.before) (old : s.Old e x.buf) :
    x ∈ (s.noticed e).tu.before ∧ (s.noticed e).Old e x.buf := by
  have taken : (s.buf x.buf).state ≠ .free := by
    obtain urgent | ⟨-, current⟩ := Tu.mem_before.1 mem
    · exact (h.queued_stands urgent).taken nofun
    · exact (h.current_stands current).taken nofun
  have frame : ((s.noticed e).buf x.buf).frame = (s.buf x.buf).frame := (State.resetNotice_frames (s.adopted e) x.buf taken).2.2.1
  refine ⟨(State.resetNotice_lingers (s.adopted e)).before x mem, ?_⟩
  rw [State.Old, frame]
  exact old

/-- The RESET actions in a sound pool (R127, R146): the old floods of the path, and the watch. -/
theorem State.Sound.resetActions_purges (h : s.Sound true []) (idle : s.tu.phase = .idle → s.tu.current = none) {t : State}
    (pool : t.pool = (s.resetMarked e).pool) (tu : t.tu = (s.resetMarked e).tu)
    (fu : t.fu = (s.resetMarked e).fu) :
    (∀ x ∈ t.tu.urgent, ¬ t.Old e x.buf) ∧ (∀ w ∈ t.fu.relayWaits, ¬ t.Old e w.buf) ∧
    (∀ x ∈ t.tu.current, (t.buf x.buf).cls = some .urgent → t.tu.phase ≠ .body → ¬ t.Old e x.buf) ∧
    ((∃ x ∈ s.tu.before, s.Old e x.buf ∧ x.headTime ≠ none) →
      t.tu.watch = .running (s.now + 10000000) ∨ t.tu.watch = .stopped ∧ t.Unled) := by
  have noticed := h.noticed e
  have idle' := State.noticed_idle (e := e) idle
  have marked : (s.resetMarked e).Sound true [] := (noticed.purge e).faultMarksCleared
  have onAir : ∀ b, (s.resetMarked e).Old e b → (s.resetMarked e).Flies b →
      (s.resetMarked e).tu.phase = .body ∧ ((s.resetMarked e).buf b).state = .sending := fun _ => noticed.cleared_old idle'
  have same : ∀ b, t.buf b = (s.resetMarked e).buf b := State.buf_congr pool
  simp only [State.Old, same] at onAir ⊢
  rw [tu, fu]
  refine ⟨fun x mem old => ?_, fun w mem old => ?_, fun x mem urgent phase old => ?_, fun ⟨x, mem, old, head⟩ => ?_⟩
  · have stands := marked.queued_stands mem
    exact absurd (stands.1.symm.trans (onAir x.buf old (.inr ⟨.inl stands.1, stands.2⟩)).2) nofun
  · have stands := marked.wait_stands mem
    exact absurd (stands.1.symm.trans (onAir w.buf old (.inl stands.1)).2) nofun
  · have stands := marked.current_stands mem
    exact phase (onAir x.buf old (.inr ⟨.inr stands.1, urgent⟩)).1
  · obtain ⟨mem', old'⟩ := h.noticed_before (e := e) mem old
    have watch := noticed.cleared_watch idle' mem' old' head
    rw [State.noticed_now] at watch
    exact watch.imp_right fun ⟨stopped, unled⟩ => ⟨stopped, unled.of_kept (by rw [tu]; exact ⟨rfl, rfl, rfl⟩)
      fun x _ => congrArg Buffer.cls (same x.buf)⟩

end Sys2Proof.Machine
end

section
/-! SUPPORT. The silence and reset presses of a PANEL station (R145, R152, R153). -/
namespace Sys2Proof.Machine

variable {dt e : Us} {s : State}

/-! ## The silence press (R152) -/

/-- The state in which a silence press asks for its SILENCE. -/
def State.panelSilenced (dt : Us) (s : State) : State :=
  (s.levelTaken dt .silence).silence s.cfg.address s.cfg.zone

theorem State.silence_eq (origin : Addr) (zone : Byte) (s : State) :
    s.silence origin zone = { s.silenceList with lu := (s.silence origin zone).lu } := State.panelRecord_eq ..

theorem exec_silencePress (panel : s.isPanel = true) (learned : s.sc.learning = .ended) (active : s.sc.inert = false)
    (power : s.su.power = .run) (debounce : s.lu.silenceLine.debounce = some e) (due : e ≤ s.now + dt)
    (raw : s.lu.silenceLine.raw = true) (level : s.lu.silenceLine.level = false) :
    exec (.debounceEnd dt .silence) s = .next (State.finish s (s.panelSilenced dt).askSilence) := by
  refine exec_debounceEnd_panel (w := .silencePress) learned active power debounce due ?_ ?_
  · change s.lu.silenceLine.raw ≠ s.lu.silenceLine.level
    rw [raw, level]
    nofun
  · change State.inputChanged .silence s.lu.silenceLine.raw _ = _
    rw [raw]
    exact State.inputChanged_silence panel

theorem State.panelSilenced_eq (dt : Us) (s : State) : ∃ lu : Lu,
    lu.silenceLine = { s.lu.silenceLine with level := s.lu.silenceLine.raw, debounce := none } ∧
    s.panelSilenced dt = { s with
      now := s.now + dt
      fu := { s.fu with fires := s.fu.fires.map (fun f => { f with silenced := true }), overflow := false }
      lu := lu } := by
  refine ⟨(s.panelSilenced dt).lu, ?_, State.silence_eq _ _ _⟩
  rw [State.panelSilenced, State.silence, (State.panelRecord_frame _ _ _ _ _ _).lu]
  rfl

/-- What a silence press leaves, its SILENCE made or pending (R145, R152, R194). -/
theorem State.panelSilenced_follows (panel : s.isPanel = true) {t : State} (asked : (s.panelSilenced dt).TxFrame t) :
    (State.finish s t).lu.sounder = false ∧ (State.finish s t).fu.overflow = false ∧
    (State.finish s t).fu.fires = s.fu.fires.map (fun f => { f with silenced := true }) ∧
    (State.finish s t).lu.silenceLine = { s.lu.silenceLine with level := s.lu.silenceLine.raw, debounce := none } ∧
    (State.finish s t).lu.fireRelay = (!s.fu.fires.isEmpty) ∧ (State.finish s t).fu.epoch = s.fu.epoch ∧
    (State.finish s t).det = s.det ∧ (State.finish s t).nt = s.nt := by
  obtain ⟨lu, line, eq⟩ := State.panelSilenced_eq dt s
  rw [eq] at asked
  have fires : t.fu.fires = s.fu.fires.map (fun f => { f with silenced := true }) := asked.fires
  have overflow : t.fu.overflow = false := asked.overflow
  have panel' : t.isPanel = true := asked.fault.isPanel.trans panel
  refine ⟨?_, ?_, ?_, ?_, ?_, ?_, ?_, ?_⟩
  · rw [State.finish_sounder, State.sounding_silenced fires overflow]
  · rw [State.finish_fu, overflow]
  · rw [State.finish_fu, fires]
  · rw [State.finish_lu_silenceLine, asked.lu, line]
  · rw [State.finish_fireRelay, State.fireRelayOn, State.fireListed, panel', fires, overflow, List.isEmpty_map]
    rw [Bool.or_false, Bool.true_and]
  · rw [State.finish_fu, asked.epoch]
  · rw [State.finish_det, asked.det]
  · rw [State.finish_nt, asked.nt]

/-- A SILENCE made at a press (R137, R152). -/
theorem State.panelSilenced_can (can : s.CanOriginate .urgent) :
    let t := State.finish s (s.panelSilenced dt).askSilence
    t.fu.seqCounter = s.fu.seqCounter + 1 ∧ ∃ b, (s.buf b).state = .free ∧ (t.buf b).cls = some .urgent ∧
      (t.buf b).frame = Frame.compose s.cfg kindSilence (floodHeader s.cfg s.fu.run s.fu.seqCounter s.fu.epoch) ∧
      (s.PoolSound → s.UrgentTaken b t) := by
  obtain ⟨lu, -, eq⟩ := State.panelSilenced_eq dt s
  generalize s.panelSilenced dt = v at *
  obtain ⟨t, made, asked⟩ := State.askSilence_of_can (s := v) (by rw [eq]; exact can)
  have fu := (State.originate_flood made nofun).1
  obtain ⟨b, free, cls, text, taken⟩ := State.originate_urgent made nofun rfl
  dsimp only
  rw [asked, State.finish_fu, fu]
  refine ⟨by rw [eq], b, by rw [eq] at free; exact free, ?_, ?_, fun sound => ?_⟩
  · rw [State.finish_buf, cls]
  · rw [State.finish_buf, text, eq]
    exact congrArg (Frame.compose s.cfg kindSilence) (List.append_nil _)
  · have taken' : v.UrgentTaken b t := taken (by rw [eq]; exact sound.entriesHeld.of_eq rfl rfl)
    refine State.UrgentTaken.finish (taken'.of_before ?_ ?_ ?_ ?_ ?_ fun x _ => ?_) <;> rw [eq] <;> rfl

/-- A SILENCE left pending at a press (R138, R152). -/
theorem State.panelSilenced_cannot (cannot : ¬ s.CanOriginate .urgent) :
    let t := State.finish s (s.panelSilenced dt).askSilence
    .silence ∈ t.fu.waiters ∧ t.fu.seqCounter = s.fu.seqCounter ∧ t.pool = s.pool ∧ t.tu = s.tu := by
  obtain ⟨lu, -, eq⟩ := State.panelSilenced_eq dt s
  generalize s.panelSilenced dt = v at *
  have cannot' : ¬ v.CanOriginate .urgent := by rw [eq]; exact cannot
  have waits : .silence ∈ v.askSilence.fu.waiters ∧ v.askSilence.fu.seqCounter = v.fu.seqCounter ∧
      v.askSilence.pool = v.pool ∧ v.askSilence.tu = v.tu := by
    rw [State.askSilence_of_cannot cannot']
    split
    · rename_i pending
      exact ⟨List.contains_iff_mem.1 pending, rfl, rfl, rfl⟩
    · exact ⟨List.mem_append_right _ List.mem_cons_self, rfl, rfl, rfl⟩
  obtain ⟨pending, seq, pool, tu⟩ := waits
  dsimp only
  rw [State.finish_fu, State.finish_pool, State.finish_tu, seq, pool, tu]
  exact ⟨pending, by rw [eq], by rw [eq], by rw [eq]⟩

/-! ## The RESET actions' outcome (R146) -/

/-- The RESET actions with epoch `e` were performed, the pool and the transmit unit aside (R58, R146, R177, R194). -/
structure State.ResetTo (e : BitVec 8) (s t : State) : Prop where
  sc : t.sc = s.sc
  nt : t.nt = s.nt
  ev : t.ev = s.ev
  epoch : t.fu.epoch = e
  fires : t.fu.fires = []
  overflow : t.fu.overflow = false
  run : t.fu.run = s.fu.run
  rest : t.det.AtRest
  marks : ∀ r ∈ t.faults.records, r.reported = false
  waiters : ∀ w ∈ t.fu.waiters, w.Outlasts e
  remote : s.isPanel = true → t.lu.remote = [] ∧ t.lu.remoteOverflow = false

theorem State.resetActions_done (e : BitVec 8) (origin : Addr) (zone : Byte) (s : State) :
    s.ResetTo e (s.resetActions e origin zone) := by
  have judge := State.resetMarked_judge (e := e) (s := s)
  obtain ⟨epoch, fires, overflow, run⟩ := State.resetMarked_fires (e := e) (s := s)
  have remote (panel : s.isPanel = true) := State.resetLines_panel (e := e) (origin := origin) (zone := zone)
    (s := s.resetMarked e) (judge.isPanel.trans panel)
  have rest := State.resetMarked_rest (e := e) (s := s)
  have marks := State.resetMarked_unreported (e := e) (s := s)
  have waiters := State.resetMarked_waiters (e := e) (s := s)
  rw [State.resetActions_eq]
  generalize s.resetMarked e = m at *
  rw [State.resetLines_eq] at remote ⊢
  exact ⟨judge.sc, judge.nt, judge.ev, epoch, fires, overflow, run, rest, marks, waiters, remote⟩

/-- What the request for the RESET leaves of them (R153). -/
theorem State.ResetTo.asked {b : BitVec 8} {t u : State} (h : s.ResetTo b t) (asked : t.TxFrame u)
    (waiters : ∀ w ∈ u.fu.waiters, w.Outlasts b) : s.ResetTo b u where
  sc := asked.sc.trans h.sc
  nt := asked.nt.trans h.nt
  ev := asked.ev.trans h.ev
  epoch := asked.epoch.trans h.epoch
  fires := asked.fires.trans h.fires
  overflow := asked.overflow.trans h.overflow
  run := asked.run.trans h.run
  rest := by rw [asked.det]; exact h.rest
  marks := by rw [asked.faults]; exact h.marks
  waiters := waiters
  remote := by rw [asked.lu]; exact h.remote

/-! ## The reset press (R153) -/

/-- The state in which a reset press asks for its RESET. -/
def State.panelReset (dt : Us) (s : State) : State :=
  (s.levelTaken dt .reset).resetActions (s.fu.epoch + 1) s.cfg.address s.cfg.zone

theorem exec_resetPress (panel : s.isPanel = true) (learned : s.sc.learning = .ended) (active : s.sc.inert = false)
    (power : s.su.power = .run) (debounce : s.lu.resetLine.debounce = some e) (due : e ≤ s.now + dt)
    (raw : s.lu.resetLine.raw = true) (level : s.lu.resetLine.level = false) :
    exec (.debounceEnd dt .reset) s = .next (State.finish s (s.panelReset dt).askReset) := by
  refine exec_debounceEnd_panel (w := .resetPress) learned active power debounce due ?_ ?_
  · change s.lu.resetLine.raw ≠ s.lu.resetLine.level
    rw [raw, level]
    nofun
  · change State.inputChanged .reset s.lu.resetLine.raw _ = _
    rw [raw]
    exact State.inputChanged_reset panel

/-- A RESET made or pending is all that comes to the waiters (R138). -/
theorem State.askReset_waiters (s : State) : ∀ w ∈ s.askReset.fu.waiters, w ∈ s.fu.waiters ∨ w = .reset s.fu.epoch := by
  intro w mem
  by_cases can : s.CanOriginate .urgent
  · obtain ⟨t, made, eq⟩ := State.askReset_of_can can
    rw [eq, (State.originate_flood made nofun).1] at mem
    exact .inl mem
  · rw [State.askReset, State.originate_of_cannot (o := .reset) can] at mem
    obtain kept | new := List.mem_append.1 mem
    · exact .inl (List.mem_filter.1 kept).1
    · exact .inr (List.mem_singleton.1 new)

/-- A buffer offered stands with its frame after the recount too (R112, R137). -/
theorem State.originate_places {o : OwnFrame} {t : State} (made : s.originate o = some t) : ∃ b,
    ((t.buf b).state = .queued ∨ (t.buf b).state = .sending) ∧ (t.buf b).cls = some o.cls ∧
      (t.buf b).frame = s.composeOwn o := by
  obtain ⟨u, bare, rfl⟩ := State.originate_eq_some made
  obtain ⟨-, b, free, rfl⟩ := State.originateBare_some bare
  generalize filled : State.recordOwn o (s.setBuf b { state := .queued, cls := some o.cls, frame := s.composeOwn o, level := none })
    = v
  have buf : v.buf b = { state := .queued, cls := some o.cls, frame := s.composeOwn o, level := none } := by
    rw [← filled, State.buf_congr (State.recordOwn_keeps o _).1, State.buf_setBuf, if_pos rfl]
  have places := State.accept_places b .own o.cls v
  obtain ⟨taken, cls, frame, -⟩ := (State.accept_offers b .own o.cls v).frames b (by rw [buf]; nofun)
  generalize v.accept b .own o.cls = u at *
  obtain ⟨-, cls', frame', -⟩ := (State.recount_offers u).frames b taken
  refine ⟨b, ?_, by rw [cls', cls, buf], by rw [frame', frame, buf]⟩
  obtain eq | ⟨c, free, -, eq⟩ := State.recount_cases u
  · rw [eq]
    exact places
  · have apart : b ≠ c := fun same => taken (same ▸ free)
    have queued : ((u.flagged.observationIn c).queueRoutine c .own).buf b = u.buf b :=
      (State.buf_moveBuf c b .queued _).trans ((if_neg apart).trans ((State.buf_setBuf c b _ _).trans (if_neg apart)))
    rw [eq, State.accept_routine]
    refine State.select_places ?_
    rw [queued]
    exact places

/-- A reset press makes a RESET of the next epoch, or leaves it pending (R138, R153). -/
theorem State.askReset_outcome (s : State) : .reset s.fu.epoch ∈ s.askReset.fu.waiters ∨ ∃ b q,
    ((s.askReset.buf b).state = .queued ∨ (s.askReset.buf b).state = .sending) ∧ (s.askReset.buf b).cls = some .urgent ∧
      (s.askReset.buf b).frame = Frame.compose s.cfg kindReset (floodHeader s.cfg s.fu.run q s.fu.epoch) := by
  by_cases can : s.CanOriginate .urgent
  · obtain ⟨t, made, eq⟩ := State.askReset_of_can can
    obtain ⟨b, places, cls, frame⟩ := State.originate_places made
    rw [eq]
    refine .inr ⟨b, s.fu.seqCounter, places, cls, frame.trans ((State.composeOwn_flood (o := .reset) nofun s).trans ?_)⟩
    exact congrArg (Frame.compose s.cfg kindReset) (List.append_nil _)
  · rw [State.askReset, State.originate_of_cannot (o := .reset) can]
    exact .inl (List.mem_append_right _ List.mem_cons_self)

/-- What a reset press leaves (R146, R153). -/
theorem State.panelReset_done (dt : Us) (s : State) : s.ResetTo (s.fu.epoch + 1) (s.panelReset dt) :=
  { State.resetActions_done (s.fu.epoch + 1) s.cfg.address s.cfg.zone (s.levelTaken dt .reset) with }

theorem State.panelReset_asked (dt : Us) (s : State) : s.ResetTo (s.fu.epoch + 1) (s.panelReset dt).askReset := by
  have done := State.panelReset_done dt s
  refine done.asked (State.askReset_frame _) fun w mem => ?_
  obtain waited | rfl := State.askReset_waiters _ w mem
  · exact done.waiters w waited
  · refine ⟨nofun, nofun, ?_⟩
    rintro p ⟨⟩
    rw [done.epoch]
    exact older_self _

/-- A RESET of the next epoch is made at a press, or pending (R138, R153). -/
theorem State.panelReset_outcome (dt : Us) (s : State) :
    let t := State.finish s (s.panelReset dt).askReset
    .reset (s.fu.epoch + 1) ∈ t.fu.waiters ∨ ∃ b q, ((t.buf b).state = .queued ∨ (t.buf b).state = .sending) ∧
      (t.buf b).cls = some .urgent ∧
      (t.buf b).frame = Frame.compose s.cfg kindReset (floodHeader s.cfg s.fu.run q (s.fu.epoch + 1)) := by
  have done := State.panelReset_done dt s
  have outcome := State.askReset_outcome (s.panelReset dt)
  have cfg : (s.panelReset dt).cfg = s.cfg := by rw [State.cfg, State.cfg, done.sc]
  rw [done.epoch, done.run, cfg] at outcome
  simpa only [State.finish_fu, State.finish_buf] using outcome

end Sys2Proof.Machine
end

section
/-! SUPPORT. The profile press (R54, R154), and the presses of a PANEL station put together. -/
namespace Sys2Proof.Machine

variable {dt e : Us} {s : State}

/-- The profile that the level of the profile line stands for (R154). -/
def State.profileLevel (s : State) : Profile := if s.lu.profileLine.raw = true then .service else .normal

/-- The state after the work of a change of the profile line. -/
def State.panelProfiled (dt : Us) (s : State) : State :=
  State.finish s ((s.levelTaken dt .profile).profileChange s.profileLevel)

theorem exec_profilePress (panel : s.isPanel = true) (learned : s.sc.learning = .ended) (active : s.sc.inert = false)
    (power : s.su.power = .run) (debounce : s.lu.profileLine.debounce = some e) (due : e ≤ s.now + dt)
    (change : s.lu.profileLine.raw ≠ s.lu.profileLine.level) :
    exec (.debounceEnd dt .profile) s = .next (s.panelProfiled dt) :=
  exec_debounceEnd_panel (w := .profileChange s.profileLevel) learned active power debounce due change
    (State.inputChanged_profile (s := s.levelTaken dt .profile) panel _)

/-- What a change of the profile line leaves, the PROFILE aside (R54, R154). -/
theorem State.panelProfiled_leaves (dt : Us) (s : State) :
    (s.panelProfiled dt).nt = s.nt ∧ (s.panelProfiled dt).ev = s.ev ∧ (s.panelProfiled dt).fu.fires = s.fu.fires ∧
    (s.panelProfiled dt).lu.profileLine = { s.lu.profileLine with level := s.lu.profileLine.raw, debounce := none } ∧
    (s.panelProfiled dt).fu.profileRefresh = (if s.profileLevel = .service then some (s.now + dt + 1800000000) else none) ∧
    (s.panelProfiled dt).det = s.det.requested s.cfg.serviceApplies (s.now + dt) s.profileLevel := by
  have told := State.profileTold_frame s.profileLevel (s.levelTaken dt .profile)
  rw [State.panelProfiled, State.profileChange_eq, State.finish_nt, State.finish_ev, State.finish_fu,
    State.finish_lu_profileLine, State.finish_det]
  refine ⟨told.nt, told.ev, told.fires, ?_, rfl, told.det⟩
  dsimp only
  rw [told.lu]
  rfl

theorem State.panelProfiled_can (can : s.CanOriginate .routine) :
    (s.panelProfiled dt).fu.seqCounter = s.fu.seqCounter + 1 ∧
    (s.panelProfiled dt).fu.pendingProfile = s.fu.pendingProfile ∧
    ∃ b, (s.buf b).state = .free ∧ ((s.panelProfiled dt).buf b).frame = Frame.compose s.cfg kindProfile
      (floodHeader s.cfg s.fu.run s.fu.seqCounter s.fu.epoch ++ [s.profileLevel.code]) := by
  obtain ⟨fu, b, free, -, frame⟩ := State.profileTold_can (p := s.profileLevel) (s := s.levelTaken dt .profile) can
  rw [State.panelProfiled, State.profileChange_eq, State.finish_fu]
  dsimp only
  rw [fu]
  refine ⟨rfl, rfl, b, free, ?_⟩
  rw [State.finish_buf]
  exact frame

theorem State.panelProfiled_cannot (cannot : ¬ s.CanOriginate .routine) :
    (s.panelProfiled dt).fu.seqCounter = s.fu.seqCounter ∧
    (s.panelProfiled dt).fu.pendingProfile = some s.profileLevel := by
  have fu := State.profileTold_cannot (p := s.profileLevel) (s := s.levelTaken dt .profile) cannot
  rw [State.panelProfiled, State.profileChange_eq, State.finish_fu]
  dsimp only
  rw [fu]
  exact ⟨rfl, rfl⟩

/-- A profile request to a station on which service applies, case by case (R54). -/
theorem Detection.requested_cases (now : Us) (p : Profile) (d : Detection) :
    (d.state = .verify → p = d.profile → d.requested true now p = { d with
      pendingProfile := none
      serviceLimit := if p = .service then some (now + 14400000000) else d.serviceLimit }) ∧
    (d.state = .verify → p ≠ d.profile → d.requested true now p = { d with pendingProfile := some p }) ∧
    (d.state ≠ .verify → p = d.profile → d.requested true now p = { d with
      serviceLimit := if p = .service then some (now + 14400000000) else d.serviceLimit }) ∧
    (d.state ≠ .verify → p ≠ d.profile → d.requested true now p = { d with
      profile := p
      serviceLimit := if p = .service then some (now + 14400000000) else none }) := by
  unfold Detection.requested
  rw [if_pos rfl]
  refine ⟨fun verify same => ?_, fun verify other => ?_, fun verify same => ?_, fun verify other => ?_⟩
  · rw [if_pos verify, if_pos same]
  · rw [if_pos verify, if_neg other]
  · rw [if_neg verify, if_pos same]
  · rw [if_neg verify, if_neg other]
    rfl

/-- Settles O44: each press has its work done in its event (`exec_debounceEnd_panel`); the RESET actions leave no old flood in
the path but a body on the air (`State.Sound.resetActions_purges`). -/
theorem panelPresses : Obligations.PanelPresses := by
  refine ⟨fun dt e s panel learned active power debounce due raw level => ?_,
    fun dt e s panel learned active power debounce due raw level => ?_, fun e origin zone s => ?_,
    fun dt e s panel learned active power debounce due change => ?_⟩
  · obtain ⟨sounder, overflow, fires, line, relay, rest⟩ :=
      State.panelSilenced_follows (dt := dt) panel (State.askSilence_frame (s.panelSilenced dt))
    obtain ⟨epoch, det, nt⟩ := rest
    refine ⟨_, exec_silencePress panel learned active power debounce due raw level, sounder, overflow, fires, ?_, ?_, relay,
      epoch, det, nt, State.panelSilenced_can, State.panelSilenced_cannot⟩
    · rw [line]
      exact raw
    · rw [line]
  · have done := State.panelReset_asked dt s
    have outcome := State.panelReset_outcome dt s
    have run := exec_resetPress panel learned active power debounce due raw level
    generalize (s.panelReset dt).askReset = u at *
    obtain ⟨remote, remoteOverflow⟩ := done.remote panel
    refine ⟨_, run, ?_, ?_, ?_, ?_, ?_, ?_, ?_, ?_, ?_, ?_, ?_, ?_, fun w mem => ?_, outcome⟩
    · rw [State.finish_fu, done.epoch]
    · rw [State.finish_fu, done.fires]
    · rw [State.finish_fu, done.overflow]
    · rw [State.finish_sounder, State.sounding, done.fires, done.overflow]
      rfl
    · rw [State.finish_fireRelay, State.fireRelayOn, State.fireListed, done.fires, done.overflow]
      exact Bool.and_false _
    · rw [State.finish_det, done.rest.state]
    · rw [State.finish_det, done.rest.cause]
    · rw [State.finish_det, done.rest.refresh]
    · rw [State.finish_lu_remote, remote]
    · rw [State.finish_lu_remoteOverflow, remoteOverflow]
    · rw [State.finish_nt, done.nt]
    · rw [State.finish_ev, done.ev]
    · rw [State.finish_fu] at mem
      exact ⟨(done.waiters w mem).1, (done.waiters w mem).2.1⟩
  · have done := State.resetActions_done e origin zone s
    refine ⟨done.epoch, done.fires, done.overflow, done.rest.state, done.rest.verifyStart, done.rest.cause,
      done.rest.evidence, done.rest.refresh, done.nt, done.ev, done.marks, done.waiters, done.remote, fun sound idle => ?_⟩
    have rest := State.resetLines_eq e origin zone (s.resetMarked e)
    obtain ⟨urgent, waits, current, watch⟩ := (State.poolSound_iff.1 sound).resetActions_purges (e := e) idle
      (t := s.resetActions e origin zone) (by rw [State.resetActions_eq, rest]) (by rw [State.resetActions_eq, rest])
      (by rw [State.resetActions_eq, rest])
    simp only [State.Old, Frame.purgedBy_iff, State.unled_iff] at urgent waits current watch
    exact ⟨urgent, waits, current, watch⟩
  · obtain ⟨nt, ev, fires, line, refresh, det⟩ := State.panelProfiled_leaves dt s
    refine ⟨_, exec_profilePress panel learned active power debounce due change, nt, ev, fires, line, refresh,
      State.panelProfiled_can, State.panelProfiled_cannot, fun other => ?_, fun applies => ?_⟩
    · rw [det, other]
      rfl
    · rw [det, applies]
      exact Detection.requested_cases _ _ _

end Sys2Proof.Machine
end
